-- ==== Sys2Proof/Word.lean ====
section
/-!
DEFINITION. The word types of the three command ports (spec 30_encoding.md R70 to R73) and the widths the spec fixes.
-/
namespace Sys2Proof

/-- One byte of RING, and the `w_data` port. -/
abbrev Byte := BitVec 8

/-- The operand ports `brc_clk_hz` and `brc_baud`: `CLK_W = BAUD_W = 32` (R5, R22). -/
abbrev Word32 := BitVec 32

/-- The three clocked agents of R8, each with its own clock, reset and command port. -/
inductive Domain where
  /-- The BRC unit, clocked by `cclk`. -/
  | brc
  /-- The ARB write domain, clocked by `wclk`. -/
  | write
  /-- The ARB read domain, clocked by `rclk`. -/
  | read
  deriving DecidableEq, Repr, Inhabited

/-- A command word as sampled from a port at one edge, with the operand ports sampled at the same edge.
The constructor says which port the word was sampled from: a word has no meaning apart from its port (R70). -/
inductive CmdWord where
  /-- Format BRCCMD: `brc_cmd[1:0]`, with the ports `brc_clk_hz` and `brc_baud` (R71). -/
  | brccmd (op : BitVec 2) (clkHz baud : Word32)
  /-- Format WCMD: bit 8 is `w_cmd`, bits 7..0 are `w_data` (R72). -/
  | wcmd (word : BitVec 9)
  /-- Format RCMD: `r_cmd[1:0]` (R73). -/
  | rcmd (op : BitVec 2)
  deriving DecidableEq, Repr, Inhabited

/-- The domain whose command port carries the word. -/
def CmdWord.domain : CmdWord → Domain
  | .brccmd _ _ _ => .brc
  | .wcmd _ => .write
  | .rcmd _ => .read

end Sys2Proof
end

