-- ==== Sys2Proof/Config.lean ====
section
/-!
DEFINITION. The implementation parameters (spec 00_scope.md R5), the HOST's steps (R8, R9, 70_reset_and_hazards.md R197)
and the model's one free value.
-/
namespace Sys2Proof

/-- `DIV_ROUND`, the rounding of the candidate divisor (R94). -/
inductive DivRound where
  | trunc
  | nearest
  deriving DecidableEq, Repr, Inhabited

/-- The parameters of R5 that are not fixed by the spec.
They are numbers here, in or out of their legal ranges; `Machine.configRefusal` is the check (R7, R55, R170). -/
structure Config where
  /-- `N`, the ARB capacity in bytes. -/
  n : Nat
  /-- `S`, synchroniser stages per direction. -/
  stages : Nat
  /-- `DIV_ROUND`. -/
  divRound : DivRound
  /-- `BRC_LATENCY`, OPEN (R5, R28). -/
  brcLatency : Nat
  /-- `REG_W`. -/
  regW : Nat
  /-- `AW`. -/
  aw : Nat
  /-- `UART_BASE`, OPEN (R5). -/
  uartBase : Nat
  /-- `OFF_DLL`, also the data registers (R43). -/
  offDll : Nat
  /-- `OFF_DLM`, also IER (R43). -/
  offDlm : Nat
  /-- `OFF_IIR_FCR`. -/
  offIirFcr : Nat
  /-- `OFF_LCR`. -/
  offLcr : Nat
  /-- `OFF_LSR`. -/
  offLsr : Nat
  /-- `OFF_FDR`. -/
  offFdr : Nat
  deriving DecidableEq, Repr, Inhabited

/-- The values of R5, with the two OPEN parameters at the values the spec's own vectors use: `BRC_LATENCY = 1`
(95_test_vectors.md) and `UART_BASE = 0x4000C000` (R122).
DESIGN CHOICE, unsafe, log 1: no statement rests on either value. -/
def Config.reference : Config where
  n := 512
  stages := 2
  divRound := .trunc
  brcLatency := 1
  regW := 32
  aw := 32
  uartBase := 0x4000C000
  offDll := 0x00
  offDlm := 0x04
  offIirFcr := 0x08
  offLcr := 0x0C
  offLsr := 0x14
  offFdr := 0x28

/-- `k = log2 N` (R5). -/
def Config.k (c : Config) : Nat := Nat.log2 c.n

/-- `PW = k + 1`, the pointer width (R5). -/
def Config.pw (c : Config) : Nat := c.k + 1

/-- Which value a first synchroniser stage captures when its source changed since the last edge (R152). -/
inductive Draw where
  | current
  | previous
  deriving DecidableEq, Repr, Inhabited

/-- One step the HOST lets happen, with every input the domain samples at it (R8, R9, R32, R39). -/
inductive HostStep where
  /-- A rising edge of `cclk`, with the BRCCMD word and the bus responses sampled at it. -/
  | cclk (op : BitVec 2) (clkHz baud : Word32) (busAck : Bool) (busRdata : Nat)
  /-- A rising edge of `wclk`, with the WCMD word and the draw of `sample_r` (R152). -/
  | wclk (word : BitVec 9) (drawR : Draw)
  /-- A rising edge of `rclk`, with the RCMD word and the draw of `sample_w` (R152). -/
  | rclk (op : BitVec 2) (drawW : Draw)
  /-- The HOST drives the three active-low reset ports to these levels (R186, R187, R188). -/
  | resets (crstN wrstN rrstN : Bool)
  /-- The HOST drives a port of this domain out of the domain's own clock, which R201 forbids. -/
  | portOutOfDomain (port : Domain)
  /-- The HOST reads an output of this domain in another domain without synchronising it, which R201 forbids too. -/
  | readOutOfDomain (port : Domain)
  deriving DecidableEq, Repr, Inhabited

/-- The command word an edge samples, if the step is an edge. -/
def HostStep.word : HostStep → Option CmdWord
  | .cclk op f b _ _ => some (.brccmd op f b)
  | .wclk w _ => some (.wcmd w)
  | .rclk op _ => some (.rcmd op)
  | .resets _ _ _ | .portOutOfDomain _ | .readOutOfDomain _ => none

/-- The model's one free value: what the HOST does at its `i`-th step that no script fixes.
The HOST may drive any word at any edge, in any interleaving, with any read data, acknowledgement and draw
(R9, R46, R152, R197), so it has no body: a theorem holds for every such HOST. Log 2. -/
opaque Config.hostStep (i : Nat) : HostStep

end Sys2Proof
end

