-- ==== Sys2Proof/Machine/State.lean ====
section
/-!
DEFINITION. The state of BRC+ARB (spec 10_state.md R20 to R40), its reset (70_reset_and_hazards.md R185), and the reasons
a run stops (60_exceptions.md R165 to R170).
-/
namespace Sys2Proof.Machine

/-- `op`: 0 is CALC, 1 is APPLY (R27). -/
inductive BrcOp where
  | calc
  | apply
  deriving DecidableEq, Repr, Inhabited

/-- The registers of BRC (R22 to R31).
A register whose width is a parameter is a number; the invariants of Safety.lean bound it (log 3). -/
structure Brc where
  /-- `in_clk`, R22. -/
  inClk : BitVec 32
  /-- `in_baud`, R22. -/
  inBaud : BitVec 32
  /-- `res_dl`, R23. -/
  resDl : BitVec 16
  /-- `res_divadd`, R23. -/
  resDivadd : BitVec 4
  /-- `res_mul`, R23. -/
  resMul : BitVec 4
  /-- `res_unach`, R24. -/
  resUnach : Bool
  /-- `res_valid`, R25. -/
  resValid : Bool
  /-- `busy`, R26. -/
  busy : Bool
  /-- `done`, R26. -/
  done : Bool
  /-- `op`, R27. -/
  op : BrcOp
  /-- `lat`, R28. -/
  lat : Nat
  /-- `apply_skipped`, R29. -/
  applySkipped : Bool
  /-- `seq`, R30. -/
  seq : BitVec 4
  /-- `bus_pend`, R31. -/
  busPend : Bool
  /-- `bus_tmp`, `REG_W` bits, R31. -/
  busTmp : Nat
  /-- `lock`, R31. -/
  lock : Bool
  deriving DecidableEq, Repr, Inhabited

/-- The registers of the ARB write domain (R33 to R35). -/
structure WriteDomain where
  /-- `wbin`, `PW` bits, R33. -/
  wbin : Nat
  /-- `wgray`, `PW` bits, R34. -/
  wgray : Nat
  /-- `rq_w[0..S-1]`, stage 0 first, R35. -/
  rqW : List Nat
  deriving DecidableEq, Repr, Inhabited

/-- The registers of the ARB read domain (R36, R37). -/
structure ReadDomain where
  /-- `rbin`, `PW` bits, R36. -/
  rbin : Nat
  /-- `rgray`, `PW` bits, R36. -/
  rgray : Nat
  /-- `wq_r[0..S-1]`, stage 0 first, R37. -/
  wqR : List Nat
  deriving DecidableEq, Repr, Inhabited

/-- The modelling-only state of the sampling rule, not hardware (R40). -/
structure Sampling where
  wChg : Bool
  wPrev : Nat
  rChg : Bool
  rPrev : Nat
  deriving DecidableEq, Repr, Inhabited

/-- The input ports a meaning reads, as sampled at this edge (R32, R39), and the draw of each crossing (R152). -/
structure Ports where
  /-- `bus_ack`, R32. -/
  busAck : Bool
  /-- `bus_rdata`, `REG_W` bits, R32. -/
  busRdata : Nat
  /-- The draw of `sample_w`, R152. -/
  drawW : Draw
  /-- The draw of `sample_r`, R152. -/
  drawR : Draw
  /-- `crst_n`, active low, R186. -/
  crstN : Bool
  /-- `wrst_n`, active low, R186. -/
  wrstN : Bool
  /-- `rrst_n`, active low, R186. -/
  rrstN : Bool
  deriving DecidableEq, Repr, Inhabited

/-- Everything the spec gives the machine, with four fields of the model's own (`cfg`, `popped`, `script`, `tick`). -/
structure State where
  /-- The configuration argument (R6); no step writes it. Log 1. -/
  cfg : Config
  brc : Brc
  wr : WriteDomain
  rd : ReadDomain
  /-- RING, `mem[0..N-1]` (R38, R50): slots that hold a byte, rising, each at most once. -/
  mem : List Host.Cell
  sampling : Sampling
  /-- The byte the last R.POP returned, `popped` of R138; the model's own field. Log 4. -/
  popped : Option Byte
  ports : Ports
  /-- The HOST steps already fixed, next first: a script (R84). The model's own field. Log 2. -/
  script : List HostStep
  /-- How many steps of the free HOST have been taken; the model's own field. Log 2. -/
  tick : Nat
  deriving DecidableEq, Repr, Inhabited

/-- The faults of R165. A fault leaves the state before the edge and ends the run for every agent (R168). -/
inductive Fault where
  /-- Raised by R.POP with `r_empty = 1`, recording the domain and `rbin` (R139, R166).
With `N = 0` there is no `rbin` to record and the model records its own 0 (DESIGN CHOICE, log 17).
  Safe: the source calls the pop undefined, and no claim about such a run can be proved. -/
  | popEmpty (domain : Domain) (rbin : Nat)
  /-- Raised by the edge that samples `brc_cmd = 0b11` or `r_cmd = 0b11`, recording the domain and the word (R167).
  Safe: a reserved word gets no invented meaning. -/
  | reservedCommand (domain : Domain) (word : Nat)
  deriving DecidableEq, Repr

/-- The refusals of R170, and the one the host requires. -/
inductive Refusal where
  /-- Raised by the dispatcher for an instruction without a meaning; no arm raises it. Safe. -/
  | notModelled (mnemonic : String)
  /-- Raised by every step of a configuration whose `N` is neither 0 nor a power of two up to 65536 (R7). Safe. -/
  | badCapacity (n : Nat)
  /-- Raised by every step of a configuration with a misaligned register address (R55). Safe. -/
  | misalignedRegister (offset : Nat)
  /-- Raised by every step of a configuration with another parameter outside the legal range of R5. Safe. -/
  | parameterOutOfRange (parameter : String)
  /-- Raised by a HOST step that asserts one ARB reset and not the other (R187, R203). Safe. -/
  | partialArbReset
  /-- Raised by a HOST step that drives a port out of its clock domain (R163, R201). Safe. -/
  | portOutOfDomain (port : Domain)
  /-- Raised by a HOST step that reads an output of this domain outside the domain (R163, R201, U15 of
  93_implementation_defined.md). Safe. -/
  | readOutOfDomain (port : Domain)
  /-- Raised by a `cclk` edge with `bus_ack = 1` and `bus_req = 0`: the HOST acknowledges requests and nothing else
  (R199), and a model has no step for breaking that duty (R197). Log 14. Safe. -/
  | ackWithoutRequest
  deriving DecidableEq, Repr

/-- Reset values of BRC (R185). -/
def Brc.reset : Brc where
  inClk := 0
  inBaud := 0
  resDl := 0
  resDivadd := 0
  resMul := 1
  resUnach := false
  resValid := false
  busy := false
  done := false
  op := .calc
  lat := 0
  applySkipped := false
  seq := 0
  busPend := false
  busTmp := 0
  lock := false

/-- How many synchroniser stages the configuration has per direction: `S`, or none when `N = 0` (R39, R146). -/
def stageCount (c : Config) : Nat := if c.n = 0 then 0 else c.stages

/-- Reset values of the write domain (R185).
DESIGN CHOICE, unsafe, log 17: with `N = 0` the block has no pointers (R39, R146), and the model keeps both at 0. -/
def WriteDomain.reset (c : Config) : WriteDomain := ⟨0, 0, List.replicate (stageCount c) 0⟩

/-- Reset values of the read domain (R185).
DESIGN CHOICE, unsafe, log 17: with `N = 0` the block has no pointers (R39, R146), and the model keeps both at 0, which
is the value the fault of an R.POP then records as `rbin` (R166). -/
def ReadDomain.reset (c : Config) : ReadDomain := ⟨0, 0, List.replicate (stageCount c) 0⟩

/-- Reset values of the modelling-only bits (R40, R153, R185). -/
def Sampling.reset : Sampling := ⟨false, 0, false, 0⟩

/-- The input ports when no edge has been sampled yet, with every reset released.
DESIGN CHOICE, unsafe, log 5: an edge overwrites the values it uses before it uses them. -/
def Ports.idle : Ports := ⟨false, 0, .current, .current, true, true, true⟩

/-- The machine right after reset, for a configuration. `mem` has no value (R38, R185). -/
def State.resetOf (c : Config) : State where
  cfg := c
  brc := Brc.reset
  wr := WriteDomain.reset c
  rd := ReadDomain.reset c
  mem := []
  sampling := Sampling.reset
  popped := none
  ports := Ports.idle
  script := []
  tick := 0

/-- The machine right after reset (R185), at the reference configuration (log 1). -/
def State.reset : State := State.resetOf Config.reference

end Sys2Proof.Machine
end

