-- ==== Sys2Proof/Machine/BaudSearch.lean ====
section
/-!
DEFINITION. BRC_FUNC, the exact divisor and fraction search (spec 40_baud_calculator.md R94 to R102).
All arithmetic is on unbounded naturals, with no wrap-around (R102, R108).
-/
namespace Sys2Proof.Machine

/-- `2^DL_W - 1`, the largest divisor (R95). -/
def dlMax : Nat := 65535

/-- `FRAC_MAX`, the largest denominator searched (R5, R99). -/
def fracMax : Nat := 15

/-- The candidate divisor (R94). -/
def candidateDivisor (r : DivRound) (f b : Nat) : Nat :=
  match r with
  | .trunc => f / (16 * b)
  | .nearest => (f + 8 * b) / (16 * b)

/-- A calculation's result: divisor, numerator, denominator (R23). -/
structure BaudResult where
  dl : Nat
  num : Nat
  den : Nat
  deriving DecidableEq, Repr, Inhabited

/-- The unachievable result `(0, 0, 1)` (R95, D21). -/
def BaudResult.sentinel : BaudResult := ⟨0, 0, 1⟩

/-- `K = 16 * D0 * B` (R96). -/
def rateScale (d0 b : Nat) : Nat := 16 * d0 * b

/-- `E = | F * d - K * s |` with `s = d + n`, exact (R96, R98). -/
def absError (f k n d : Nat) : Nat := (f * d - k * (d + n)) + (k * (d + n) - f * d)

/-- The relative error of pair 1 is strictly below that of pair 2: `E1 * s2 < E2 * s1` (R98).
A pair is `(n, d)`. -/
def strictlyCloser (f k : Nat) (p q : Nat × Nat) : Bool :=
  absError f k p.1 p.2 * (q.2 + q.1) < absError f k q.1 q.2 * (p.2 + p.1)

/-- The 120 pairs `(n, d)` with `0 ≤ n < d ≤ 15`, `d` ascending, then `n` ascending (R96, R99). -/
def fractionPairs : List (Nat × Nat) :=
  (List.range fracMax).flatMap fun i => (List.range (i + 1)).map fun n => (n, i + 1)

/-- One turn of the search loop: a pair replaces the best one only when it is strictly closer (R96, R100). -/
def keepCloser (f k : Nat) (best : Option (Nat × Nat)) (p : Nat × Nat) : Option (Nat × Nat) :=
  match best with
  | none => some p
  | some q => if strictlyCloser f k p q then some p else some q

/-- The search loop over all pairs in order (R96). -/
def searchFraction (f k : Nat) : Option (Nat × Nat) := fractionPairs.foldl (keepCloser f k) none

/-- BRC_FUNC (R96): the sentinel for a zero input (R101) or a divisor out of range (R95), else the divisor with the
closest fraction. -/
def brcFunc (r : DivRound) (f b : Nat) : BaudResult :=
  if f = 0 ∨ b = 0 then .sentinel
  else
    let d0 := candidateDivisor r f b
    if d0 = 0 ∨ dlMax < d0 then .sentinel
    else
      match searchFraction f (rateScale d0 b) with
      | some (n, d) => ⟨d0, n, d⟩
      | none => .sentinel

end Sys2Proof.Machine
end

