-- ==== Sys2Proof/Machine/Gray.lean ====
section
/-!
DEFINITION. The reflected binary gray code and the synchroniser stages (spec 44_cdc_sync.md R150 to R153).
-/
namespace Sys2Proof.Machine

/-- `gray(b) = b XOR (b >> 1)` (R150). -/
def gray (b : Nat) : Nat := b ^^^ (b >>> 1)

/-- `bin(g)` of a `w`-bit value: bit `i` is the XOR of the bits of `g` from `w - 1` down to `i` (R150), that is
`g XOR (g >> 1) XOR ... XOR (g >> (w - 1))`. -/
def bin : Nat → Nat → Nat
  | 0, _ => 0
  | w + 1, g => g ^^^ bin w (g >>> 1)

/-- `(a - b) mod 2^w`. -/
def subMod (w a b : Nat) : Nat := (a + (2 ^ w - b % 2 ^ w)) % 2 ^ w

/-- The last stage, which is the destination domain's view of the source pointer (R35, R37); 0 where there are no
stages (`N = 0`). -/
def lastStage (stages : List Nat) : Nat := stages.getLastD 0

/-- `q[0] <- sample`, `q[j] <- q[j-1]` (R151). A crossing without stages (`N = 0`) stays without them. -/
def shiftStages (sample : Nat) (stages : List Nat) : List Nat := (sample :: stages).take stages.length

/-- The first stage's capture: the current value when the source has not changed, else the drawn one of the current and
the previous value (R152). -/
def sampled (chg : Bool) (current previous : Nat) (d : Draw) : Nat :=
  match chg, d with
  | true, .previous => previous
  | true, .current | false, _ => current

end Sys2Proof.Machine
end

