-- ==== Sys2Proof/Machine/Ops.lean ====
section
/-!
DEFINITION. The named operations over RING and the registers, the resets, and the check of a configuration.

BRC+ARB takes no exception and returns from none (spec 60_exceptions.md R165, R177): a fault ends the run and is an
outcome of the step, so no operation here saves or restores a state.
-/
namespace Sys2Proof.Machine

/-! ## RING (20_memory.md R50, R51, R69) -/

/-- `MemRead(i, 1)` of R13: the byte slot `i` holds, or no value where nothing has been written (R38, U4). -/
def Memory.read : List Host.Cell → Nat → Option Byte
  | [], _ => none
  | (a, v) :: m, i => if i = a then some v else Memory.read m i

/-- `MemWrite(i, 1, v)` of R13, keeping the slots rising. -/
def Memory.write : List Host.Cell → Nat → Byte → List Host.Cell
  | [], i, v => [(i, v)]
  | (a, b) :: m, i, v =>
    if i < a then (i, v) :: (a, b) :: m
    else if i = a then (i, v) :: m
    else (a, b) :: Memory.write m i v

/-- Every listed slot is above `i`, and the slots rise. -/
def Memory.risesFrom : Nat → List Host.Cell → Bool
  | _, [] => true
  | i, (a, _) :: m => i < a && Memory.risesFrom a m

/-- The canonical form: slots strictly rising. An unlisted slot reads as no value, so no entry can equal it. -/
def Memory.wf : List Host.Cell → Bool
  | [] => true
  | (a, _) :: m => Memory.risesFrom a m

/-! ## Updates, one per field -/

def State.setBrc (s : State) (b : Brc) : State := { s with brc := b }
def State.setWr (s : State) (w : WriteDomain) : State := { s with wr := w }
def State.setRd (s : State) (r : ReadDomain) : State := { s with rd := r }
def State.setMem (s : State) (m : List Host.Cell) : State := { s with mem := m }
def State.setSampling (s : State) (x : Sampling) : State := { s with sampling := x }
def State.setPopped (s : State) (v : Option Byte) : State := { s with popped := v }
def State.setPorts (s : State) (p : Ports) : State := { s with ports := p }
def State.setScript (s : State) (es : List HostStep) : State := { s with script := es }
def State.setTick (s : State) (n : Nat) : State := { s with tick := n }

/-! ## Input ports sampled at an edge -/

/-- The bus responses the HOST drives at a `cclk` edge (R32, R199). -/
def State.driveBus (s : State) (ack : Bool) (rdata : Nat) : State :=
  s.setPorts { s.ports with busAck := ack, busRdata := rdata }

/-- The draw of `sample_w` at an `rclk` edge (R152). -/
def State.driveDrawW (s : State) (d : Draw) : State := s.setPorts { s.ports with drawW := d }

/-- The draw of `sample_r` at a `wclk` edge (R152). -/
def State.driveDrawR (s : State) (d : Draw) : State := s.setPorts { s.ports with drawR := d }

/-- The levels of the three reset ports (R186). -/
def State.driveResets (s : State) (c w r : Bool) : State :=
  s.setPorts { s.ports with crstN := c, wrstN := w, rrstN := r }

/-! ## Resets (70_reset_and_hazards.md R185 to R188) -/

/-- BRC at its reset values; ARB and the attached UART are not touched (R188). -/
def State.resetBrc (s : State) : State := s.setBrc Brc.reset

/-- Both ARB domains at their reset values at once; RING then has no value (R187, R185). -/
def State.resetArb (s : State) : State :=
  ((((s.setWr (WriteDomain.reset s.cfg)).setRd (ReadDomain.reset s.cfg)).setMem []).setSampling
    Sampling.reset).setPopped none

/-- The HOST drives the reset ports: a port at 0 resets its domain asynchronously (R186), and the two ARB resets act
together, so a level of one without the other is refused (R187, X3 of 95_test_vectors.md). -/
def State.applyResets (s : State) (c w r : Bool) : Host.Outcome State Fault Refusal :=
  if w = r then
    let s1 := s.driveResets c w r
    let s2 := if c then s1 else s1.resetBrc
    .next (if w then s2 else s2.resetArb)
  else .refused .partialArbReset

/-! ## Configurations (R5, R7, R55, R170) -/

/-- `UART_BASE + OFF` modulo `2^AW` (R52). -/
def regAddress (c : Config) (off : Nat) : Nat := (c.uartBase + off) % 2 ^ c.aw

/-- The six register offsets of R5. -/
def regOffsets (c : Config) : List Nat := [c.offDll, c.offDlm, c.offIirFcr, c.offLcr, c.offLsr, c.offFdr]

/-- `N` is 0 or `2^k` with `k ≤ 16` (R7). -/
def capacityOk (n : Nat) : Bool := n == 0 || (n == 2 ^ Nat.log2 n && n ≤ 65536)

/-- The register address is a multiple of `REG_W / 8` bytes (R55). -/
def offsetAligned (c : Config) (off : Nat) : Bool := regAddress c off % (c.regW / 8) == 0

/-- Why a configuration is refused, if it is: an illegal `N` (R7), a parameter out of the range R5 gives it, or a
misaligned register address (R55). The offsets are distinct values (R5): two that are equal modulo `2^AW` are accepted, and
BRC then reaches two registers at one address (R52). -/
def configRefusal (c : Config) : Option Refusal :=
  if !capacityOk c.n then some (.badCapacity c.n)
  else if c.stages < 2 then some (.parameterOutOfRange "SYNC_STAGES")
  else if c.brcLatency < 1 then some (.parameterOutOfRange "BRC_LATENCY")
  else if c.regW < 8 then some (.parameterOutOfRange "REG_W")
  else if c.aw < 8 then some (.parameterOutOfRange "AW")
  else if 2 ^ c.aw ≤ c.uartBase then some (.parameterOutOfRange "UART_BASE")
  else if !decide (regOffsets c).Nodup then some (.parameterOutOfRange "OFF")
  else ((regOffsets c).find? fun off => !offsetAligned c off).map .misalignedRegister

end Sys2Proof.Machine
end

