-- ==== Sys2Proof/Machine/Flags.lean ====
section
/-!
DEFINITION. The status flags and level outputs (spec 10_state.md R41, 42_ring_write.md R128, 43_ring_read.md R136, R146).
The flags of BRC are registers and are read as fields; those of ARB are computed from their own domain's registers.
-/
namespace Sys2Proof.Machine

/-! ## BRC flags, driven from registers (R32, R41) -/

def State.brcBusy (s : State) : Bool := s.brc.busy
def State.brcDone (s : State) : Bool := s.brc.done
def State.brcValid (s : State) : Bool := s.brc.resValid
def State.brcUnach (s : State) : Bool := s.brc.resUnach
def State.brcSkipped (s : State) : Bool := s.brc.applySkipped

/-! ## Write view (R128) -/

/-- `rgray_w`, the write domain's view of the read pointer (R35). -/
def State.rgrayW (s : State) : Nat := lastStage s.wr.rqW

/-- `w_level = (wbin - bin(rgray_w)) mod 2^PW` (R128); 0 for `N = 0` (R146). -/
def State.wLevel (s : State) : Nat :=
  if s.cfg.n = 0 then 0 else subMod s.cfg.pw s.wr.wbin (bin s.cfg.pw s.rgrayW)

/-- `w_full = (w_level = N)` (R128). -/
def State.wFull (s : State) : Bool := s.wLevel == s.cfg.n

/-- `w_empty = (w_level = 0)` (R128). -/
def State.wEmpty (s : State) : Bool := s.wLevel == 0

/-! ## Read view (R136) -/

/-- `wgray_r`, the read domain's view of the write pointer (R37). -/
def State.wgrayR (s : State) : Nat := lastStage s.rd.wqR

/-- `r_level = (bin(wgray_r) - rbin) mod 2^PW` (R136); 0 for `N = 0` (R146). -/
def State.rLevel (s : State) : Nat :=
  if s.cfg.n = 0 then 0 else subMod s.cfg.pw (bin s.cfg.pw s.wgrayR) s.rd.rbin

/-- `r_empty = (r_level = 0)` (R136). -/
def State.rEmpty (s : State) : Bool := s.rLevel == 0

/-- `r_full = (r_level = N)` (R136). -/
def State.rFull (s : State) : Bool := s.rLevel == s.cfg.n

/-- The gray-compare form of `w_full` for `k ≥ 1`: `wgray = {NOT rgray_w[k:k-1], rgray_w[k-2:0]}`, and for `k = 0`
`wgray[0] ≠ rgray_w[0]` (R128). The level form above is the normative one. -/
def State.wFullByGray (s : State) : Bool :=
  if s.cfg.k = 0 then s.wr.wgray.testBit 0 != s.rgrayW.testBit 0
  else s.wr.wgray == s.rgrayW ^^^ (0b11 <<< (s.cfg.k - 1))

/-! ## What the flags of BRC become -/

/-- `busy` and `done` when an operation is accepted (R26, R41). -/
def Brc.flagsAccepted (b : Brc) : Brc := { b with busy := true, done := false }

/-- `busy` and `done` when an operation completes (R26, R41). -/
def Brc.flagsCompleted (b : Brc) : Brc := { b with busy := false, done := true }

end Sys2Proof.Machine
end

