-- ==== Sys2Proof/Machine/Operands.lean ====
section
/-!
DEFINITION. What the commands take and deliver: slots, the read data output, the result outputs and the register images
(spec 30_encoding.md R74 to R79, 20_memory.md R50, 43_ring_read.md R135).
-/
namespace Sys2Proof.Machine

/-- A slot index: the low `k` bits of a pointer, 0 when `k = 0` (R50). -/
def slotOf (c : Config) (pointer : Nat) : Nat := pointer % 2 ^ c.k

/-- A pointer's next value modulo `2^PW` (R126, R138). -/
def nextPointer (c : Config) (pointer : Nat) : Nat := (pointer + 1) % 2 ^ c.pw

/-- The slot the next accepted push writes (R33). -/
def State.writeSlot (s : State) : Nat := slotOf s.cfg s.wr.wbin

/-- The slot of the oldest byte visible to the reader (R36). -/
def State.readSlot (s : State) : Nat := slotOf s.cfg s.rd.rbin

/-- `r_data`: the byte of the read slot while `r_empty = 0`, and no value while `r_empty = 1` (R135, U3). -/
def State.rData (s : State) : Option Byte :=
  if s.rEmpty then none else Memory.read s.mem s.readSlot

/-! ## Result outputs and register images, driven at all times (R32, R78) -/

def State.brcDl (s : State) : BitVec 16 := s.brc.resDl
def State.brcDivadd (s : State) : BitVec 4 := s.brc.resDivadd
def State.brcMul (s : State) : BitVec 4 := s.brc.resMul

/-- `dll_img = res_dl[7:0]` (R75). -/
def Brc.dllImg (b : Brc) : BitVec 8 := b.resDl.extractLsb' 0 8

/-- `dlm_img = res_dl[15:8]` (R75). -/
def Brc.dlmImg (b : Brc) : BitVec 8 := b.resDl.extractLsb' 8 8

/-- `fdr_img = {res_mul[3:0], res_divadd[3:0]}` (R76). -/
def Brc.fdrImg (b : Brc) : BitVec 8 := b.resMul ++ b.resDivadd

/-! ## Field updates on a `REG_W`-bit register value (R77, R112, R114) -/

/-- `v OR 0x80`: DLAB set, every other bit kept (R77). -/
def setDlab {w : Nat} (v : BitVec w) : BitVec w := v ||| 0x80#w

/-- `v AND NOT 0x80`: DLAB clear, every other bit kept (R77). -/
def clearDlab {w : Nat} (v : BitVec w) : BitVec w := v &&& ~~~0x80#w

/-- `(t AND NOT 0xFF) OR zext(x)`: bits 7..0 replaced, the others kept (R112, R114). -/
def insertByte {w : Nat} (t : BitVec w) (x : BitVec 8) : BitVec w := (t &&& ~~~0xFF#w) ||| x.setWidth w

end Sys2Proof.Machine
end

