-- ==== Sys2Proof/Machine/Bus.lean ====
section
/-!
DEFINITION. The ten BUS transactions of an APPLY and the bus request outputs (spec 41_baud_apply.md R112, R113,
20_memory.md R52, R56).
-/
namespace Sys2Proof.Machine

/-- The four attached registers BRC reaches (R45, R52). -/
inductive BusTarget where
  | lcr
  | dll
  | dlm
  | fdr
  deriving DecidableEq, Repr, Inhabited

/-- A row of R112: its direction, its register and whether it lies in the locked part. -/
structure BusRow where
  write : Bool
  target : BusTarget
  locked : Bool
  deriving DecidableEq, Repr, Inhabited

/-- The rows of R112 by `seq`; there is no row 0 (no transaction in progress) and none above 10 (R30). -/
def busRow (seq : BitVec 4) : Option BusRow :=
  match seq.toNat with
  | 1 => some ⟨false, .lcr, true⟩
  | 2 => some ⟨true, .lcr, true⟩
  | 3 => some ⟨false, .dll, true⟩
  | 4 => some ⟨true, .dll, true⟩
  | 5 => some ⟨false, .dlm, true⟩
  | 6 => some ⟨true, .dlm, true⟩
  | 7 => some ⟨false, .lcr, true⟩
  | 8 => some ⟨true, .lcr, true⟩
  | 9 => some ⟨false, .fdr, false⟩
  | 10 => some ⟨true, .fdr, false⟩
  | _ => none

/-- The offset parameter of a register (R43, R112). -/
def targetOffset (c : Config) : BusTarget → Nat
  | .lcr => c.offLcr
  | .dll => c.offDll
  | .dlm => c.offDlm
  | .fdr => c.offFdr

/-- The bus address of a register offset: `UART_BASE + OFF` modulo `2^AW` (R52). -/
def busAddress (c : Config) (off : Nat) : BitVec c.aw := BitVec.ofNat c.aw (c.uartBase + off)

/-- `A(x) = UART_BASE + OFF_x` (R52, R112). -/
def targetAddress (c : Config) (t : BusTarget) : BitVec c.aw := busAddress c (targetOffset c t)

/-- `t`, the value of `bus_tmp`, as a `REG_W`-bit value. -/
def Brc.tmp (c : Config) (b : Brc) : BitVec c.regW := BitVec.ofNat c.regW b.busTmp

/-- The write data column of R112. -/
def Brc.writeData (c : Config) (b : Brc) : Option (BitVec c.regW) :=
  match b.seq.toNat with
  | 2 => some (setDlab (b.tmp c))
  | 4 => some (insertByte (b.tmp c) b.dllImg)
  | 6 => some (insertByte (b.tmp c) b.dlmImg)
  | 8 => some (clearDlab (b.tmp c))
  | 10 => some (insertByte (b.tmp c) b.fdrImg)
  | _ => none

/-- One transaction of the BUS, `REG_W` bits wide (R13, R56). -/
inductive BusTransaction (aw regW : Nat) where
  | read (address : BitVec aw)
  | write (address : BitVec aw) (data : BitVec regW)
  deriving DecidableEq, Repr

/-- The transaction of row `seq`, computed from the current registers (R112, R113). -/
def Brc.transaction (c : Config) (b : Brc) : Option (BusTransaction c.aw c.regW) :=
  match busRow b.seq with
  | none => none
  | some row =>
    match b.writeData c with
    | some v => some (.write (targetAddress c row.target) v)
    | none => some (.read (targetAddress c row.target))

/-- `bus_req = bus_pend` (R113).
DESIGN CHOICE, unsafe, log 19: 10_state.md R49 says that `bus_pend` is visible on no port, and R113 makes this port equal to
it; the model follows R113, and R32, which names the port. -/
def Brc.busReq (b : Brc) : Bool := b.busPend

/-- `bus_lock = lock` (R113, R115). -/
def Brc.busLock (b : Brc) : Bool := b.lock

/-- `bus_we`: 1 exactly for the write rows (R113). -/
def Brc.busWe (b : Brc) : Bool :=
  match busRow b.seq with
  | some row => row.write
  | none => false

/-- `bus_addr`, meaningful only while `bus_req = 1` (R113). -/
def Brc.busAddr (c : Config) (b : Brc) : Option (BitVec c.aw) :=
  match b.transaction c with
  | some (.read a) | some (.write a _) => if b.busPend then some a else none
  | none => none

/-- `bus_wdata`, meaningful only while `bus_req = 1` in a write row (R113). -/
def Brc.busWdata (c : Config) (b : Brc) : Option (BitVec c.regW) :=
  match b.transaction c with
  | some (.write _ v) => if b.busPend then some v else none
  | some (.read _) | none => none

/-- Row `seq` is a read (R112). -/
def isReadRow (seq : BitVec 4) : Bool :=
  match busRow seq with
  | some row => !row.write
  | none => false

end Sys2Proof.Machine
end

