-- ==== Sys2Proof/Machine/BaudCalculator.lean ====
section
/-!
DEFINITION. The `cclk` edge: the progress of BRC's operation and the commands BRC.NOP and BRC.START
(spec 40_baud_calculator.md R90 to R93, 41_baud_apply.md R113).
-/
namespace Sys2Proof.Machine

/-! ## Progress, whatever command is sampled -/

/-- The result registers and flags at a completion (R93). -/
def Brc.completeCalc (c : Config) (b : Brc) : Brc :=
  let r := brcFunc c.divRound b.inClk.toNat b.inBaud.toNat
  { b.flagsCompleted with
    resDl := BitVec.ofNat 16 r.dl
    resDivadd := BitVec.ofNat 4 r.num
    resMul := BitVec.ofNat 4 r.den
    resUnach := r.dl == 0
    resValid := true }

/-- A `cclk` edge with `busy = 1` and `op = CALC`: count down, and complete at the edge that brings `lat` to 0 (R93). -/
def Brc.calcStep (c : Config) (b : Brc) : Brc :=
  let counted := { b with lat := b.lat - 1 }
  if b.lat = 1 then counted.completeCalc c else counted

/-- Issue transaction `seq`; row 1 takes the lock (R113). -/
def Brc.issue (b : Brc) : Brc :=
  { b with busPend := true, lock := if b.seq = 1#4 then true else b.lock }

/-- Transaction `seq` completes: a read row captures the data, row 8 releases the lock, row 10 ends the operation and
every other row moves to the next (R113, R121). -/
def Brc.acknowledge (c : Config) (rdata : Nat) (b : Brc) : Brc :=
  let taken :=
    { b with
      busTmp := if isReadRow b.seq then rdata % 2 ^ c.regW else b.busTmp
      busPend := false
      lock := if b.seq = 8#4 then false else b.lock }
  if b.seq = 10#4 then { taken.flagsCompleted with seq := 0#4 } else { taken with seq := b.seq + 1#4 }

/-- A `cclk` edge with `busy = 1` and `op = APPLY`: issue, complete, or wait for `bus_ack` (R113, R120). -/
def Brc.transactionStep (c : Config) (ack : Bool) (rdata : Nat) (b : Brc) : Brc :=
  if !b.busPend then b.issue
  else if ack then b.acknowledge c rdata
  else b

/-- The progress of BRC at a `cclk` edge: none while `busy = 0` (R90, R93, R113). -/
def Brc.progress (c : Config) (ack : Bool) (rdata : Nat) (b : Brc) : Brc :=
  if b.busy then
    match b.op with
    | .calc => b.calcStep c
    | .apply => b.transactionStep c ack rdata
  else b

/-- The progress with the bus responses sampled at this edge. -/
def State.brcProgress (s : State) : Brc := s.brc.progress s.cfg s.ports.busAck s.ports.busRdata

/-! ## Commands -/

/-- An accepted BRC.START: operands latched, the old result cleared, the calculation started (R91). -/
def Brc.acceptStart (c : Config) (f b : Word32) (x : Brc) : Brc :=
  { x.flagsAccepted with
    inClk := f
    inBaud := b
    resDl := 0
    resDivadd := 0
    resMul := 1
    resUnach := false
    resValid := false
    applySkipped := false
    op := .calc
    lat := c.brcLatency }

/-- BRC.NOP (R90): no command effect; the progress still happens. -/
def execBrcNop (s : State) : Host.Outcome State Fault Refusal := .next (s.setBrc s.brcProgress)

/-- BRC.START (R91), ignored while `busy = 1`, when only the operation in progress moves on (R92, R174).
The operation in progress exists only while `busy = 1`, so an accepted command and progress never meet at one edge. -/
def execBrcStart (f b : Word32) (s : State) : Host.Outcome State Fault Refusal :=
  .next (s.setBrc (if s.brc.busy then s.brcProgress else s.brc.acceptStart s.cfg f b))

end Sys2Proof.Machine
end

