-- ==== Sys2Proof/Machine/BaudApply.lean ====
section
/-!
DEFINITION. BRC.APPLY (spec 41_baud_apply.md R111, R118).
-/
namespace Sys2Proof.Machine

/-- An achievable result is held: `res_valid = 1` and `res_unach = 0` (R111). -/
def Brc.canApply (b : Brc) : Bool := b.resValid && !b.resUnach

/-- A skipped BRC.APPLY: no transaction, `busy` stays 0 (R111, R118). -/
def Brc.skipApply (b : Brc) : Brc := { b with applySkipped := true, done := true }

/-- An accepted BRC.APPLY (R111). -/
def Brc.acceptApply (b : Brc) : Brc :=
  { b.flagsAccepted with applySkipped := false, op := .apply, seq := 1#4, busPend := false, lock := false }

/-- BRC.APPLY (R111), ignored while `busy = 1` (R92). -/
def execBrcApply (s : State) : Host.Outcome State Fault Refusal :=
  .next (s.setBrc
    (if s.brc.busy then s.brcProgress
     else if s.brc.canApply then s.brc.acceptApply
     else s.brc.skipApply))

end Sys2Proof.Machine
end

