-- ==== Sys2Proof/Machine/RingRead.lean ====
section
/-!
DEFINITION. The `rclk` edge: the write-pointer synchroniser, R.NOP, R.POP and R.FLUSH (spec 43_ring_read.md R137 to R141,
R146, 44_cdc_sync.md R151 to R153).
-/
namespace Sys2Proof.Machine

/-- `sample_w`, what `wq_r[0]` captures at this edge (R152). -/
def State.sampleW (s : State) : Nat := sampled s.sampling.wChg s.wr.wgray s.sampling.wPrev s.ports.drawW

/-- The synchroniser shift of every `rclk` edge (R151), which also clears `w_chg` (R153).
It reads no register that R.POP or R.FLUSH writes, so applying it after the command's effect is the simultaneous
update of R9. -/
def State.syncR (s : State) : State :=
  (s.setRd { s.rd with wqR := shiftStages s.sampleW s.rd.wqR }).setSampling { s.sampling with wChg := false }

/-- `rbin` and `rgray` take new values; where `rgray` changes, `r_prev` keeps the value before the edge and `r_chg` is
set (R36, R153). -/
def State.moveRead (s : State) (nbin ngray : Nat) : State :=
  (s.setRd { s.rd with rbin := nbin, rgray := ngray }).setSampling
    (if ngray = s.rd.rgray then s.sampling else { s.sampling with rChg := true, rPrev := s.rd.rgray })

/-- A pop from a non-empty view: the byte of `r_data` is returned and the pointer moves on (R138). -/
def State.popOne (s : State) : State :=
  (s.setPopped s.rData).moveRead (nextPointer s.cfg s.rd.rbin) (gray (nextPointer s.cfg s.rd.rbin))

/-- A flush: the read pointer takes the view of the write pointer from before the edge (R140). With `N = 0` there is no
pointer to move (R146). -/
def State.flushView (s : State) : State :=
  if s.cfg.n = 0 then s else s.moveRead (bin s.cfg.pw s.wgrayR) s.wgrayR

/-- R.NOP (R137). -/
def execRNop (s : State) : Host.Outcome State Fault Refusal := .next s.syncR

/-- R.POP (R138); with `r_empty = 1` it faults and changes nothing (R139, R166, R174).
With `N = 0` the `rbin` recorded is the model's own 0 (DESIGN CHOICE, log 17). -/
def execRPop (s : State) : Host.Outcome State Fault Refusal :=
  if s.rEmpty then .fault (.popEmpty .read s.rd.rbin) else .next s.popOne.syncR

/-- R.FLUSH (R140). -/
def execRFlush (s : State) : Host.Outcome State Fault Refusal := .next s.flushView.syncR

end Sys2Proof.Machine
end

