-- ==== Sys2Proof/Machine/RingWrite.lean ====
section
/-!
DEFINITION. The `wclk` edge: the read-pointer synchroniser, W.NOP and W.PUSH (spec 42_ring_write.md R125 to R127,
44_cdc_sync.md R151 to R153).
-/
namespace Sys2Proof.Machine

/-- `sample_r`, what `rq_w[0]` captures at this edge (R152). -/
def State.sampleR (s : State) : Nat := sampled s.sampling.rChg s.rd.rgray s.sampling.rPrev s.ports.drawR

/-- The synchroniser shift of every `wclk` edge (R151), which also clears `r_chg` (R153).
It reads no register that W.PUSH writes, so applying it after the command's effect is the simultaneous update of R9. -/
def State.syncW (s : State) : State :=
  (s.setWr { s.wr with rqW := shiftStages s.sampleR s.wr.rqW }).setSampling { s.sampling with rChg := false }

/-- `wbin` and `wgray` take a new count; where `wgray` changes, `w_prev` keeps the value before the edge and `w_chg` is
set (R34, R153). -/
def State.moveWrite (s : State) (nxt : Nat) : State :=
  (s.setWr { s.wr with wbin := nxt, wgray := gray nxt }).setSampling
    (if gray nxt = s.wr.wgray then s.sampling else { s.sampling with wChg := true, wPrev := s.wr.wgray })

/-- An accepted push: the byte is stored and the pointer moves at one edge (R61, R126). -/
def State.acceptPush (s : State) (d : Byte) : State :=
  (s.setMem (Memory.write s.mem s.writeSlot d)).moveWrite (nextPointer s.cfg s.wr.wbin)

/-- W.NOP (R125). -/
def execWNop (s : State) : Host.Outcome State Fault Refusal := .next s.syncW

/-- W.PUSH (R126), dropped without a trace while `w_full = 1` (R127), as every push is when `N = 0` (R146). -/
def execWPush (d : Byte) (s : State) : Host.Outcome State Fault Refusal :=
  .next (if s.wFull then s else s.acceptPush d).syncW

end Sys2Proof.Machine
end

