-- ==== Sys2Proof/Syntax.lean ====
section
/-!
DEFINITION. The eight commands of BRC+ARB (spec 30_encoding.md R86), one constructor per row of spec/opcode_table.json.
-/
namespace Sys2Proof

/-- The block has no instruction set; its instructions are the command words of its three ports (R70, R86).
A constructor's arguments are the fields the command reads. -/
inductive Instr where
  /-- BRC.NOP (R90). -/
  | brcNop
  /-- BRC.START `F, B`: the operand ports `brc_clk_hz` and `brc_baud` sampled at the same edge (R91). -/
  | brcStart (clkHz baud : Word32)
  /-- BRC.APPLY (R111). -/
  | brcApply
  /-- W.NOP; its `w_data` is ignored (R125). -/
  | wNop
  /-- W.PUSH `d` (R126). -/
  | wPush (d : Byte)
  /-- R.NOP (R137). -/
  | rNop
  /-- R.POP (R138). -/
  | rPop
  /-- R.FLUSH (R140). -/
  | rFlush
  deriving DecidableEq, Repr, Inhabited

/-- The domain whose port carries the command (R70, R86). -/
def Instr.domain : Instr → Domain
  | .brcNop | .brcStart _ _ | .brcApply => .brc
  | .wNop | .wPush _ => .write
  | .rNop | .rPop | .rFlush => .read

end Sys2Proof
end

