-- ==== Sys2Proof/Machine/Dispatch.lean ====
section
/-!
DEFINITION. One arm per command: the edge at which it is sampled, with the domain's reset not asserted.
-/
namespace Sys2Proof.Machine

/-- The edge of the command's own clock at which the command is sampled: the command's effect, BRC's progress and the
synchroniser shift together (R174). -/
def exec (i : Instr) (s : State) : Host.Outcome State Fault Refusal :=
  match i with
  | .brcNop => Sys2Proof.Machine.execBrcNop s
  | .brcStart f b => Sys2Proof.Machine.execBrcStart f b s
  | .brcApply => Sys2Proof.Machine.execBrcApply s
  | .wNop => Sys2Proof.Machine.execWNop s
  | .wPush d => Sys2Proof.Machine.execWPush d s
  | .rNop => Sys2Proof.Machine.execRNop s
  | .rPop => Sys2Proof.Machine.execRPop s
  | .rFlush => Sys2Proof.Machine.execRFlush s

end Sys2Proof.Machine
end

