-- ==== Sys2Proof/WellFormed.lean ====
section
/-!
DEFINITION. Which command words and operands are legal (spec 30_encoding.md R71 to R74, R80, R84).
-/
namespace Sys2Proof

/-- A word is legal unless it is one of the two reserved encodings, `brc_cmd = 0b11` and `r_cmd = 0b11` (R80).
Every WCMD word is legal (R72). -/
def CmdWord.wellFormed : CmdWord → Bool
  | .brccmd op _ _ => op != 0b11#2
  | .wcmd _ => true
  | .rcmd op => op != 0b11#2

/-- The operands of the script syntax, before they are given a width: `F, B` in `0 .. 2^32-1` (R84). -/
def clockOperandsOk (f b : Nat) : Bool := f < 2 ^ 32 && b < 2 ^ 32

/-- The byte operand of the script syntax: `0 .. 255` (R84). -/
def byteOperandOk (d : Nat) : Bool := d < 256

/-- An instruction's operands are in the ranges of R84.
The operand types (32, 32 and 8 bits) admit exactly those ranges, so no term of `Instr` is ill-formed: the checks that
can refuse are `CmdWord.wellFormed` on words and the two range checks above on script operands. -/
def Instr.wellFormed : Instr → Bool
  | .brcStart f b => clockOperandsOk f.toNat b.toNat
  | .wPush d => byteOperandOk d.toNat
  | .brcNop | .brcApply | .wNop | .rNop | .rPop | .rFlush => true

end Sys2Proof
end

