-- ==== Sys2Proof/Decode.lean ====
section
/-!
DEFINITION. Decoding and encoding of the command words (spec 30_encoding.md R70 to R73, R80 to R83), and the opcode
table as data.
-/
namespace Sys2Proof

/-- Why a word is rejected. -/
inductive DecodeError where
  /-- The word is a reserved encoding of this port (R80). -/
  | reserved (port : Domain) (word : Nat)
  deriving DecidableEq, Repr

/-- BRCCMD: `0b00` NOP, `0b01` START, `0b10` APPLY, `0b11` reserved (R71). -/
def decodeBrccmd (op : BitVec 2) (f b : Word32) : Except DecodeError Instr :=
  if op = 0b00#2 then .ok .brcNop
  else if op = 0b01#2 then .ok (.brcStart f b)
  else if op = 0b10#2 then .ok .brcApply
  else .error (.reserved .brc op.toNat)

/-- WCMD: bit 8 set is PUSH of bits 7..0, bit 8 clear is NOP with `w_data` ignored; no word is reserved (R72). -/
def decodeWcmd (word : BitVec 9) : Except DecodeError Instr :=
  if word.getLsbD 8 then .ok (.wPush (word.extractLsb' 0 8)) else .ok .wNop

/-- RCMD: `0b00` NOP, `0b01` POP, `0b10` FLUSH, `0b11` reserved (R73). -/
def decodeRcmd (op : BitVec 2) : Except DecodeError Instr :=
  if op = 0b00#2 then .ok .rNop
  else if op = 0b01#2 then .ok .rPop
  else if op = 0b10#2 then .ok .rFlush
  else .error (.reserved .read op.toNat)

/-- Decoding is total on the words of every port and depends on nothing but the word (R70, R83). -/
def decode : CmdWord → Except DecodeError Instr
  | .brccmd op f b => decodeBrccmd op f b
  | .wcmd word => decodeWcmd word
  | .rcmd op => decodeRcmd op

/-- The word of a command (R71 to R73). Ports the command does not read are driven to 0. -/
def encode : Instr → CmdWord
  | .brcNop => .brccmd 0b00#2 0#32 0#32
  | .brcStart f b => .brccmd 0b01#2 f b
  | .brcApply => .brccmd 0b10#2 0#32 0#32
  | .wNop => .wcmd (0#1 ++ 0#8)
  | .wPush d => .wcmd (1#1 ++ d)
  | .rNop => .rcmd 0b00#2
  | .rPop => .rcmd 0b01#2
  | .rFlush => .rcmd 0b10#2

/-- A word without what its command ignores: the operand ports but for BRC.START (R71), and W.NOP's byte (R72). -/
def CmdWord.significant : CmdWord → CmdWord
  | .brccmd op f b => if op = 0b01#2 then .brccmd op f b else .brccmd op 0#32 0#32
  | .wcmd word => if word.getLsbD 8 then .wcmd word else .wcmd 0#9
  | .rcmd op => .rcmd op

/-- The command bits of a word as one number, bit 0 least significant, as the opcode table numbers them. -/
def CmdWord.bits : CmdWord → Nat
  | .brccmd op _ _ => op.toNat
  | .wcmd word => word.toNat
  | .rcmd op => op.toNat

/-- One row of spec/opcode_table.json. -/
structure OpcodeRow where
  mnemonic : String
  port : Domain
  pattern : Nat
  mask : Nat
  deriving DecidableEq, Repr

/-- spec/opcode_table.json, row by row. -/
def opcodeTable : List OpcodeRow :=
  [⟨"BRC.NOP", .brc, 0b00, 0b11⟩, ⟨"BRC.START", .brc, 0b01, 0b11⟩, ⟨"BRC.APPLY", .brc, 0b10, 0b11⟩,
   ⟨"W.NOP", .write, 0x000, 0x100⟩, ⟨"W.PUSH", .write, 0x100, 0x100⟩,
   ⟨"R.NOP", .read, 0b00, 0b11⟩, ⟨"R.POP", .read, 0b01, 0b11⟩, ⟨"R.FLUSH", .read, 0b10, 0b11⟩]

/-- The row's pattern matches the word, which was sampled from the row's port. -/
def OpcodeRow.hits (r : OpcodeRow) (w : CmdWord) : Bool :=
  r.port == w.domain && (w.bits &&& r.mask) == r.pattern

/-- The mnemonic of a command, as the table spells it. -/
def Instr.mnemonic : Instr → String
  | .brcNop => "BRC.NOP"
  | .brcStart _ _ => "BRC.START"
  | .brcApply => "BRC.APPLY"
  | .wNop => "W.NOP"
  | .wPush _ => "W.PUSH"
  | .rNop => "R.NOP"
  | .rPop => "R.POP"
  | .rFlush => "R.FLUSH"

/-- The port word that the opcode table's numbering of an instruction stands for.
The table gives BRCCMD and RCMD the same two bits and no bit that tells the ports apart, so a word of up to one byte is
read as BRCCMD, with zero operand ports, and one of two bytes as WCMD; RCMD words are reached through `decode`.
DESIGN CHOICE, safe, log 7. A number with a bit the format does not have stands for no word. -/
def tableWord (nbits w : Nat) : Option CmdWord :=
  if nbits ≤ 8 then
    if w < 4 then some (.brccmd (BitVec.ofNat 2 w) 0#32 0#32) else none
  else if nbits ≤ 16 then
    if w < 512 then some (.wcmd (BitVec.ofNat 9 w)) else none
  else none

/-- What the decoder reads from an instruction numbered as spec/opcode_table.json numbers it. -/
def decodeTableWord (nbits w : Nat) : Option Instr :=
  match tableWord nbits w with
  | some word => (decode word).toOption
  | none => none

end Sys2Proof
end

