-- ==== Sys2Proof/Machine/Edges.lean ====
section
/-!
DEFINITION. What the next HOST step asks of the machine, before a command is run: the choice of the step, the resets and
their priority, the sampling of the ports and the decoding of the word (spec 00_scope.md R8, R9, 60_exceptions.md R165
to R170, R174, 70_reset_and_hazards.md R186, R187, R199, R201).
-/
namespace Sys2Proof.Machine

/-- What a HOST step comes to. -/
inductive Plan where
  /-- Run this command in this state. -/
  | run (i : Instr) (s : State)
  /-- No command runs: the outcome is this. -/
  | answer (o : Host.Outcome State Fault Refusal)

/-- The next HOST step and the state without it: the script's first line, or the free HOST's next choice (log 2). -/
def State.takeHostStep (s : State) : HostStep × State :=
  match s.script with
  | e :: rest => (e, s.setScript rest)
  | [] => (Config.hostStep s.tick, s.setTick (s.tick + 1))

/-- A sampled word: a reserved encoding faults with the domain and the word recorded (R80, R167). -/
def planWord (w : CmdWord) (s : State) : Plan :=
  match decode w with
  | .ok i => .run i s
  | .error (.reserved port word) => .answer (.fault (.reservedCommand port word))

/-- The HOST raises `bus_ack` only while a request is pending, and a `cclk` edge that breaks this is no step of the model
(R197, R199). DEDUCED, safe, log 14: the fault of a reserved word, raised whatever the domain's other state (R167),
stands before this refusal. -/
def refuseStrayAck (ack : Bool) (s : State) (p : Plan) : Plan :=
  match p with
  | .answer (.fault r) => .answer (.fault r)
  | .run _ _ | .answer (.next _) | .answer (.refused _) =>
    if ack && !s.brc.busReq then .answer (.refused .ackWithoutRequest) else p

/-- A HOST step in a state whose script no longer holds it.
An asserted reset has priority over the command, whatever it is (R174, R186). -/
def planStep (e : HostStep) (s : State) : Plan :=
  match e with
  | .cclk op f b ack rdata =>
    let s1 := s.driveBus ack rdata
    refuseStrayAck ack s (if s1.ports.crstN then planWord (.brccmd op f b) s1 else .answer (.next s1.resetBrc))
  | .wclk w d =>
    let s1 := s.driveDrawR d
    if s1.ports.wrstN then planWord (.wcmd w) s1 else .answer (.next s1.resetArb)
  | .rclk op d =>
    let s1 := s.driveDrawW d
    if s1.ports.rrstN then planWord (.rcmd op) s1 else .answer (.next s1.resetArb)
  | .resets c w r => .answer (s.applyResets c w r)
  | .portOutOfDomain port => .answer (.refused (.portOutOfDomain port))
  | .readOutOfDomain port => .answer (.refused (.readOutOfDomain port))

/-- The next step's plan; a configuration the spec refuses has no step (R7, R55, R170). -/
def plan (s : State) : Plan :=
  match configRefusal s.cfg with
  | some r => .answer (.refused r)
  | none => planStep s.takeHostStep.1 s.takeHostStep.2

/-- The edge at which a word is sampled from its port, with the bus silent and the draws current. -/
def edgeOf : CmdWord → HostStep
  | .brccmd op f b => .cclk op f b false 0
  | .wcmd w => .wclk w .current
  | .rcmd op => .rclk op .current

/-- The state in which the HOST's very next step is the edge that samples this word, with no reset asserted, since an
asserted reset would ignore it (R186). Log 2, log 7. -/
def State.withPortWord (s : State) (w : CmdWord) : State :=
  (s.driveResets true true true).setScript (edgeOf w :: s.script)

/-- The same for a word numbered as the opcode table numbers it; a number that stands for no word places none. -/
def State.placeTableWord (s : State) (nbits w : Nat) : State :=
  match tableWord nbits w with
  | some word => s.withPortWord word
  | none => s

end Sys2Proof.Machine
end

