-- ==== Sys2Proof/Machine/Step.lean ====
section
/-!
DEFINITION. One step of the machine: one HOST step (spec 00_scope.md R8, R9).
-/
namespace Sys2Proof.Machine

/-- One step: the plan's command, or its answer. -/
def step (s : State) : Host.Outcome State Fault Refusal :=
  match plan s with
  | .run i t => exec i t
  | .answer o => o

/-- The state in which `step` samples and runs exactly the instruction numbered `w` (log 2, log 7). -/
def State.withFetchWord (s : State) (nbits w : Nat) : State := s.placeTableWord nbits w

end Sys2Proof.Machine
end

