-- ==== Sys2Proof/Machine/Script.lean ====
section
/-!
DEFINITION. Scripts: the script lines and pseudo-instructions of the script syntax (spec 30_encoding.md R84, R85), how a
HOST runs them on the machine, the end of such a run and the result observed then (70_reset_and_hazards.md R207).
A script is the HOST's; no rule of the block depends on this file.
-/
namespace Sys2Proof.Machine

/-! ## Lines -/

/-- A line of a script: one command of one port, or a pseudo-instruction whose length depends on the run (R84, R85). -/
inductive ScriptLine where
  | command (i : Instr)
  /-- `C: WAITDONE`. -/
  | waitDone
  /-- `R: DRAIN`. -/
  | drain
  deriving DecidableEq, Repr

/-- The port a line belongs to (R84, R85). -/
def ScriptLine.port : ScriptLine → Domain
  | .command i => i.domain
  | .waitDone => .brc
  | .drain => .read

/-- The NOP of a port. -/
def nopOf : Domain → Instr
  | .brc => .brcNop
  | .write => .wNop
  | .read => .rNop

/-- `W: IDLE n`, `R: IDLE n`, `C: IDLE n`: `n` NOPs on that port (R85). -/
def idle (port : Domain) (n : Nat) : List ScriptLine := List.replicate n (.command (nopOf port))

/-- `R: SYNC`, `W: SYNC`: `S + 1` NOPs (R85). -/
def sync (c : Config) (port : Domain) : List ScriptLine := idle port (c.stages + 1)

/-- `C: CONFIGURE F, B` (R85). -/
def configure (f b : Word32) : List ScriptLine :=
  [.command (.brcStart f b), .waitDone, .command .brcApply, .waitDone]

/-- What a port's lines come to at its next edge. -/
inductive PortDrive where
  /-- No line is left. -/
  | consumed
  /-- Drive this command; these lines are left after it. -/
  | drive (i : Instr) (rest : List ScriptLine)
  /-- The next line tests an output of this other domain, which it may not read (R163, R201). -/
  | readsOutOf (port : Domain)
  deriving DecidableEq, Repr

/-- A line that repeats until an output of its own domain says that it is over; it stands on that domain's port, since an
output is read in its own domain (R163, R201). -/
def repeatLine (port own : Domain) (ended : Bool) (i : Instr) (line : ScriptLine) (rest : List ScriptLine)
    (next : PortDrive) : PortDrive :=
  if port = own then if ended then next else .drive i (line :: rest)
  else .readsOutOf own

/-- What the lines on a port drive at its next edge, judged on the outputs before that edge: WAITDONE drives NOPs until
`brc_done = 1`, DRAIN drives POPs while `r_empty = 0`, and either is no edge at all when it is over already (R85). -/
def nextCommand (port : Domain) (s : State) : List ScriptLine → PortDrive
  | [] => .consumed
  | .command i :: rest => .drive i rest
  | .waitDone :: rest => repeatLine port .brc s.brcDone .brcNop .waitDone rest (nextCommand port s rest)
  | .drain :: rest => repeatLine port .read s.rEmpty .rPop .drain rest (nextCommand port s rest)

/-! ## Running scripts -/

/-- The script of each port (R84). -/
structure Scripts where
  brc : List ScriptLine
  write : List ScriptLine
  read : List ScriptLine
  deriving DecidableEq, Repr

/-- The three scripts of a listing: each port takes its own lines, in order (R84). -/
def Scripts.ofListing (lines : List ScriptLine) : Scripts where
  brc := lines.filter fun l => l.port == .brc
  write := lines.filter fun l => l.port == .write
  read := lines.filter fun l => l.port == .read

/-- The lines of one port. -/
def Scripts.lines (p : Scripts) : Domain → List ScriptLine
  | .brc => p.brc
  | .write => p.write
  | .read => p.read

/-- The scripts with one port's lines replaced. -/
def Scripts.setLines (p : Scripts) (d : Domain) (lines : List ScriptLine) : Scripts :=
  match d with
  | .brc => { p with brc := lines }
  | .write => { p with write := lines }
  | .read => { p with read := lines }

/-- What the HOST chooses beside the scripts: whose clock has the next edge, and the bus responses or the draw of that
edge (R9, R152, R197). -/
inductive Turn where
  | brc (ack : Bool) (rdata : Nat)
  | write (draw : Draw)
  | read (draw : Draw)
  deriving DecidableEq, Repr

/-- The domain whose clock has the edge. -/
def Turn.domain : Turn → Domain
  | .brc _ _ => .brc
  | .write _ => .write
  | .read _ => .read

/-- The edge of a turn that samples a word; a word of another port cannot be driven at it (R201). -/
def Turn.edge : Turn → CmdWord → HostStep
  | .brc ack rdata, .brccmd op f b => .cclk op f b ack rdata
  | .write d, .wcmd w => .wclk w d
  | .read d, .rcmd op => .rclk op d
  | .brc _ _, w | .write _, w | .read _, w => .portOutOfDomain w.domain

/-- The HOST step of a turn: the edge, with the word of the command the port drives at it, or the read the machine
refuses.
DESIGN CHOICE, safe, log 18: a port whose script is consumed drives its NOP at the edges it still has. -/
def Scripts.hostStep (p : Scripts) (s : State) (t : Turn) : HostStep :=
  match nextCommand t.domain s (p.lines t.domain) with
  | .drive i _ => t.edge (encode i)
  | .consumed => t.edge (encode (nopOf t.domain))
  | .readsOutOf port => .readOutOfDomain port

/-- The scripts after a turn of a domain. -/
def Scripts.afterTurn (p : Scripts) (s : State) (d : Domain) : Scripts :=
  match nextCommand d s (p.lines d) with
  | .drive _ rest => p.setLines d rest
  | .consumed => p.setLines d []
  | .readsOutOf _ => p

/-- A run of scripts on the machine, one turn after the other: each turn places its HOST step in the machine's own
script, and the machine steps. It stops at the first fault or refusal (R9, R84, R165). -/
def runScripts : List Turn → Scripts → State → Host.Outcome (Scripts × State) Fault Refusal
  | [], p, s => .next (p, s)
  | t :: ts, p, s =>
    match step (s.setScript [p.hostStep s t]) with
    | .next u => runScripts ts (p.afterTurn s t.domain) u
    | .fault r => .fault r
    | .refused r => .refused r

/-! ## The end of a run (R207) -/

/-- Every port's script is consumed: no port has a command left to drive (R207). -/
def Scripts.consumed (p : Scripts) (s : State) : Bool :=
  nextCommand .brc s p.brc == .consumed && nextCommand .write s p.write == .consumed &&
    nextCommand .read s p.read == .consumed

/-- The machine has no HOST step left to take and BRC is idle: the machine's part of R207. That no fault is recorded is
that there is a state at all (R165). -/
def State.finished (s : State) : Bool := s.script.isEmpty && !s.brcBusy

/-- A run of scripts is finished: every port's script consumed, `brc_busy = 0`, and no fault (R207). -/
def Scripts.finished (p : Scripts) (s : State) : Bool := p.consumed s && s.finished

/-- The block's output ports (R32, R39, R41). An output without a meaning at the time is none (log 15). -/
structure Outputs where
  brcBusy : Bool
  brcDone : Bool
  brcValid : Bool
  brcUnach : Bool
  brcSkipped : Bool
  brcDl : BitVec 16
  brcDivadd : BitVec 4
  brcMul : BitVec 4
  dllImg : BitVec 8
  dlmImg : BitVec 8
  fdrImg : BitVec 8
  busReq : Bool
  busWe : Bool
  busAddr : Option Nat
  busWdata : Option Nat
  busLock : Bool
  wFull : Bool
  wEmpty : Bool
  wLevel : Nat
  rData : Option Byte
  rEmpty : Bool
  rFull : Bool
  rLevel : Nat
  deriving DecidableEq, Repr

/-- What the output ports show in a state. -/
def State.outputs (s : State) : Outputs where
  brcBusy := s.brcBusy
  brcDone := s.brcDone
  brcValid := s.brcValid
  brcUnach := s.brcUnach
  brcSkipped := s.brcSkipped
  brcDl := s.brcDl
  brcDivadd := s.brcDivadd
  brcMul := s.brcMul
  dllImg := s.brc.dllImg
  dlmImg := s.brc.dlmImg
  fdrImg := s.brc.fdrImg
  busReq := s.brc.busReq
  busWe := s.brc.busWe
  busAddr := (s.brc.busAddr s.cfg).map BitVec.toNat
  busWdata := (s.brc.busWdata s.cfg).map BitVec.toNat
  busLock := s.brc.busLock
  wFull := s.wFull
  wEmpty := s.wEmpty
  wLevel := s.wLevel
  rData := s.rData
  rEmpty := s.rEmpty
  rFull := s.rFull
  rLevel := s.rLevel

/-- The observed result of a run (R207): the registers and outputs at its end, with the two levels read after SYNC edges
on both domains. Of RING it holds only the slots an accepted push has written. -/
structure Observed where
  brc : Brc
  write : WriteDomain
  read : ReadDomain
  mem : List Host.Cell
  outputs : Outputs
  deriving DecidableEq, Repr

/-- `R: SYNC` and `W: SYNC` together. -/
def syncBoth (c : Config) : Scripts := Scripts.ofListing (sync c .read ++ sync c .write)

/-- What is observed at a finished state, when the HOST runs both SYNCs from it in the order and with the draws of these
turns; nothing if the turns do not complete them (R207). -/
def State.observe (s : State) (ts : List Turn) : Option Observed :=
  match runScripts ts (syncBoth s.cfg) s with
  | .next (p, t) =>
    if p.consumed t then
      some ⟨s.brc, s.wr, s.rd, s.mem, { s.outputs with rLevel := t.rLevel, wLevel := t.wLevel }⟩
    else none
  | .fault _ | .refused _ => none

/-- A whole run of scripts and its observed result: the turns of the run, then the turns of the SYNCs; nothing if the run
stops or is not finished (R207). -/
def observeRun (ts syncTs : List Turn) (p : Scripts) (s : State) : Option Observed :=
  match runScripts ts p s with
  | .next (q, t) => if q.finished t then t.observe syncTs else none
  | .fault _ | .refused _ => none

end Sys2Proof.Machine
end

