-- ==== Sys2Proof/Machine/Uart.lean ====
section
/-!
DEFINITION. The attached UART as a slave of plain registers with the divisor-latch aliasing (spec 10_state.md R43, R44,
41_baud_apply.md R116).

The registers are state of the UART, not of the block (R43), and the machine answers every BRC read from the HOST with
any value (R46): nothing in the machine reads this file. It is the slave of the condition of R116, for statements.
-/
namespace Sys2Proof.Machine

/-- The registers of R43, `w` bits each. -/
structure Uart (w : Nat) where
  rbr : BitVec w
  thr : BitVec w
  dll : BitVec w
  dlm : BitVec w
  ier : BitVec w
  iir : BitVec w
  fcr : BitVec w
  lcr : BitVec w
  lsr : BitVec w
  fdr : BitVec w
  deriving DecidableEq, Repr

/-- DLAB, LCR bit 7 (R16, R44). -/
def Uart.dlab {w : Nat} (u : Uart w) : Bool := u.lcr.getLsbD 7

/-- What a read of an address returns: with DLAB 1 the first two addresses reach DLL and DLM, with DLAB 0 they reach
RBR and IER (R43, R44); an address of no register returns nothing.
DESIGN CHOICE, unsafe, log 20: offsets that are equal modulo `2^AW` are one address (R5, R52), and the spec does not say which
register it reaches; this slave takes the first match of LCR, DLL, DLM, FDR, IIR, LSR. -/
def Uart.readAt (c : Config) (u : Uart c.regW) (a : BitVec c.aw) : Option (BitVec c.regW) :=
  if a = busAddress c c.offLcr then some u.lcr
  else if a = busAddress c c.offDll then some (if u.dlab then u.dll else u.rbr)
  else if a = busAddress c c.offDlm then some (if u.dlab then u.dlm else u.ier)
  else if a = busAddress c c.offFdr then some u.fdr
  else if a = busAddress c c.offIirFcr then some u.iir
  else if a = busAddress c c.offLsr then some u.lsr
  else none

/-- What a write to an address does, with the same aliasing: the write sides of the shared addresses are THR, IER and
FCR (R43, R44); LSR is not written by the spec's map, and a write to it or to no register changes nothing.
DESIGN CHOICE, unsafe, log 20: of offsets that are equal modulo `2^AW` the first match of LCR, DLL, DLM, FDR, FCR is written. -/
def Uart.writeAt (c : Config) (u : Uart c.regW) (a : BitVec c.aw) (v : BitVec c.regW) : Uart c.regW :=
  if a = busAddress c c.offLcr then { u with lcr := v }
  else if a = busAddress c c.offDll then (if u.dlab then { u with dll := v } else { u with thr := v })
  else if a = busAddress c c.offDlm then (if u.dlab then { u with dlm := v } else { u with ier := v })
  else if a = busAddress c c.offFdr then { u with fdr := v }
  else if a = busAddress c c.offIirFcr then { u with fcr := v }
  else u

/-- The data the slave puts on `bus_rdata` for a transaction; 0 where there is nothing to return. -/
def Uart.reply (c : Config) (u : Uart c.regW) : Option (BusTransaction c.aw c.regW) → BitVec c.regW
  | some (.read a) => (u.readAt c a).getD 0
  | some (.write _ _) | none => 0

/-- The slave after performing a transaction once (R56, R199). -/
def Uart.perform (c : Config) (u : Uart c.regW) : Option (BusTransaction c.aw c.regW) → Uart c.regW
  | some (.write a v) => u.writeAt c a v
  | some (.read _) | none => u

end Sys2Proof.Machine
end

