-- ==== Sys2Proof/Safety.lean ====
section
/-!
DEFINITION. What counts as a safe state and a safe run, in the terms the statements use: runs, the invariants of BRC and
of ARB, the bytes a state holds, and BRC beside a plain-register slave.
-/
namespace Sys2Proof.Machine

/-! ## Runs -/

/-- The machine run through the listed HOST steps, stopping at the first fault or refusal (R9, R84). -/
def play : List HostStep → State → Host.Outcome State Fault Refusal
  | [], s => .next s
  | e :: es, s =>
    match step (s.setScript [e]) with
    | .next t => play es t
    | .fault r => .fault r
    | .refused r => .refused r

/-- A `cclk` edge with `bus_ack = 0` that samples a legal BRCCMD word; the only legal edges while no request is pending
(R199). -/
def silentBrcEdge : HostStep → Bool
  | .cclk op _ _ ack _ => op != 0b11#2 && !ack
  | .wclk _ _ | .rclk _ _ | .resets _ _ _ | .portOutOfDomain _ | .readOutOfDomain _ => false

/-- A `wclk` edge with any word, or an `rclk` edge with R.NOP: no read-domain command but R.NOP (R132). -/
def writeOrReadIdle : HostStep → Bool
  | .wclk _ _ => true
  | .rclk op _ => op == 0b00#2
  | .cclk _ _ _ _ _ | .resets _ _ _ | .portOutOfDomain _ | .readOutOfDomain _ => false

/-- The byte a step asks to push, if it is an edge that samples W.PUSH. -/
def pushedByte : HostStep → Option Byte
  | .wclk w _ => if w.getLsbD 8 then some (w.extractLsb' 0 8) else none
  | .cclk _ _ _ _ _ | .rclk _ _ | .resets _ _ _ | .portOutOfDomain _ | .readOutOfDomain _ => none

/-! ## BRC -/

/-- What R22 to R31 say of BRC's registers in every reachable state. -/
structure BrcInv (c : Config) (b : Brc) : Prop where
  /-- `busy` and `done` are never both 1 (R26). -/
  busyOrDone : ¬(b.busy = true ∧ b.done = true)
  /-- `res_unach = 1` exactly when `res_valid = 1` and `res_dl = 0` (R24). -/
  unachIff : b.resUnach = true ↔ b.resValid = true ∧ b.resDl = 0#16
  /-- The result is the sentinel triple or a divisor with a proper fraction (R23, R79). -/
  resultLegal : b.resDl = 0#16 ∧ b.resDivadd = 0#4 ∧ b.resMul = 1#4 ∨ b.resDl ≠ 0#16 ∧ b.resDivadd < b.resMul
  /-- While no calculation has completed, the result shows its reset value (R23, R78). -/
  clearedWhileInvalid : b.resValid = false → b.resDl = 0#16 ∧ b.resDivadd = 0#4 ∧ b.resMul = 1#4
  /-- A calculation in progress has edges left, and its result is not yet valid (R25, R28). -/
  calcRunning : b.busy = true → b.op = .calc → 1 ≤ b.lat ∧ b.lat ≤ c.brcLatency ∧ b.resValid = false
  /-- An APPLY in progress has an achievable result (R111, R123). -/
  applyRunning : b.busy = true → b.op = .apply → b.canApply = true
  /-- `seq` is nonzero exactly while an APPLY runs (R30). -/
  seqWhileApply : b.seq ≠ 0#4 ↔ b.busy = true ∧ b.op = .apply
  /-- Values 11 to 15 of `seq` are never reached (R30). -/
  seqBound : b.seq ≤ 10#4
  /-- A transaction is pending only while an APPLY runs (R31, R113). -/
  pendWhileApply : b.busPend = true → b.seq ≠ 0#4
  /-- The lock is held from the issue of row 1 to the completion of row 8 (R115). -/
  lockWindow : b.lock = true ↔ b.seq = 1#4 ∧ b.busPend = true ∨ 2#4 ≤ b.seq ∧ b.seq ≤ 8#4
  /-- `bus_tmp` is a `REG_W`-bit value (R31). -/
  tmpWidth : b.busTmp < 2 ^ c.regW

/-- BRC waits for an acknowledgement: the state that is stuck while none comes (R120, R169). -/
def Brc.waitsForAck (b : Brc) : Bool := b.busy && b.op == .apply && b.busPend

/-- The relative error of the pair `(n1, d1)` is at most that of `(n2, d2)`, both against the target `B` scaled to
`K = 16 * D0 * B` and the clock `F`: `E1 * s2 ≤ E2 * s1` (R98). -/
def ErrorAtMost (f k n1 d1 n2 d2 : Nat) : Prop := absError f k n1 d1 * (d2 + n2) ≤ absError f k n2 d2 * (d1 + n1)

/-- The pairs of R99. -/
def FractionPair (n d : Nat) : Prop := n < d ∧ d ≤ 15

/-- The pair's relative error is least among all pairs of R99. -/
def LeastError (f k n d : Nat) : Prop :=
  FractionPair n d ∧ ∀ n' d', FractionPair n' d' → ErrorAtMost f k n d n' d'

/-! ## ARB -/

/-- The live bytes, oldest first: the slots from `rbin` up to `wbin` (R159). -/
def State.live (s : State) : List (Option Byte) :=
  (List.range (subMod s.cfg.pw s.wr.wbin s.rd.rbin)).map fun i => Memory.read s.mem (slotOf s.cfg (s.rd.rbin + i))

/-- The bytes a command adds to the buffer in this state: an accepted push's byte (R126, R127). -/
def State.acceptedBy (s : State) : Instr → List (Option Byte)
  | .wPush d => if s.wFull then [] else [some d]
  | .brcNop | .brcStart _ _ | .brcApply | .wNop | .rNop | .rPop | .rFlush => []

/-- The bytes that leave the buffer by a command in this state, oldest first: the popped byte, or the flushed ones
(R63, R138, R141). -/
def State.leavingBy (s : State) : Instr → List (Option Byte)
  | .rPop => if s.rEmpty then [] else [s.rData]
  | .rFlush => s.live.take s.rLevel
  | .brcNop | .brcStart _ _ | .brcApply | .wNop | .wPush _ | .rNop => []

/-- What a HOST step does to the buffer's contents, by the command its word decodes to. -/
def State.bytesOf (s : State) (f : State → Instr → List (Option Byte)) (e : HostStep) : List (Option Byte) :=
  match e.word with
  | none => []
  | some w =>
    match decode w with
    | .ok i => f s i
    | .error _ => []

/-- A run with its history: the bytes accepted, the bytes that left, and the last state; nothing if the run stops. -/
def playBytes : List HostStep → State → Option (List (Option Byte) × List (Option Byte) × State)
  | [], s => some ([], [], s)
  | e :: es, s =>
    match step (s.setScript [e]) with
    | .next t =>
      match playBytes es t with
      | some (a, l, u) => some (s.bytesOf State.acceptedBy e ++ a, s.bytesOf State.leavingBy e ++ l, u)
      | none => none
    | .fault _ | .refused _ => none

/-- The bytes returned by the first `m` pops from a state; fewer if a pop faults. -/
def poppedBytes : Nat → State → List (Option Byte)
  | 0, _ => []
  | m + 1, s =>
    match exec .rPop s with
    | .next t => t.popped :: poppedBytes m t
    | .fault _ | .refused _ => []

/-- One crossing in unbounded counts (R152 to R158): the source pointer counts `count`, its value before the last change
not yet covered by a destination edge counts `prev` (equal to `count` when there is none), and the stages, newest first,
hold the codes of the counts `held`. -/
structure Crossing (pw count prev : Nat) (held : List Nat)
    (srcBin srcGray : Nat) (chg : Bool) (prevGray : Nat) (stages : List Nat) : Prop where
  /-- The binary pointer is the count modulo `2^PW` (R158). -/
  binary : srcBin = count % 2 ^ pw
  /-- `gray = gray(bin)` (R34, R36). -/
  coded : srcGray = gray (count % 2 ^ pw)
  /-- Every stage holds a value the source held: no torn values (R154). -/
  untorn : stages = held.map fun c => gray (c % 2 ^ pw)
  prevLe : prev ≤ count
  /-- With no change since the last destination edge, the source's only value is the current one (R152). -/
  unchanged : chg = false → prev = count
  /-- `w_prev` or `r_prev` is the value before the last change (R153). -/
  changed : chg = true → prevGray = gray (prev % 2 ^ pw)
  /-- No stage is ahead of what the next edge can capture (R156). -/
  notAhead : ∀ c ∈ held, c ≤ prev
  /-- Older stages are not ahead of newer ones (R156). -/
  ordered : held.Pairwise (· ≥ ·)

/-- The counting and storage invariants of R158 and R159, for `N = 2^k`: `Wc`, `Rc` count accepted pushes and departed
bytes, and the last entries of `wv` and `rv` are `Wv` and `Rv`. -/
structure RingCounts (s : State) (wc wp : Nat) (wv : List Nat) (rc rp : Nat) (rv : List Nat) : Prop where
  capacity : s.cfg.n = 2 ^ s.cfg.k
  /-- `S ≥ 2` (R5). -/
  depth : 2 ≤ s.cfg.stages
  stagesR : wv.length = s.cfg.stages
  stagesW : rv.length = s.cfg.stages
  write : Crossing s.cfg.pw wc wp wv s.wr.wbin s.wr.wgray s.sampling.wChg s.sampling.wPrev s.rd.wqR
  read : Crossing s.cfg.pw rc rp rv s.rd.rbin s.rd.rgray s.sampling.rChg s.sampling.rPrev s.wr.rqW
  /-- `Rc ≤ Wv` (R158). -/
  readerBehind : rc ≤ lastStage wv
  /-- `Wc ≤ Rv + N` (R158). -/
  writerBounded : wc ≤ lastStage rv + s.cfg.n
  /-- Every live count has its byte (R159). -/
  stored : ∀ c, rc ≤ c → c < wc → (Memory.read s.mem (slotOf s.cfg c)).isSome = true
  /-- RING has `N` slots (R50). -/
  inRing : ∀ cell ∈ s.mem, cell.1 < s.cfg.n

/-- The invariant of ARB: the counts of R158 and R159 exist, or `N = 0` and there is nothing (R146). -/
def RingInv (s : State) : Prop :=
  if s.cfg.n = 0 then
    s.wr = WriteDomain.reset s.cfg ∧ s.rd = ReadDomain.reset s.cfg ∧ s.mem = [] ∧ s.sampling = Sampling.reset
  else ∃ wc wp wv rc rp rv, RingCounts s wc wp wv rc rp rv

/-- A domain whose reset is asserted holds its reset values, and the ARB resets are asserted together (R186, R187). -/
structure ResetsHeld (s : State) : Prop where
  brc : s.ports.crstN = false → s.brc = Brc.reset
  together : s.ports.wrstN = s.ports.rrstN
  arb : s.ports.wrstN = false →
    s.wr = WriteDomain.reset s.cfg ∧ s.rd = ReadDomain.reset s.cfg ∧ s.mem = [] ∧ s.sampling = Sampling.reset

/-- The whole machine's invariant. -/
structure Inv (s : State) : Prop where
  brc : BrcInv s.cfg s.brc
  ring : RingInv s
  resets : ResetsHeld s
  memory : Memory.wf s.mem = true

/-! ## BRC beside the plain-register slave of R116 -/

/-- `bus_ack` of a slave that is ready or not at an edge: it acknowledges a pending request and nothing else (R199). -/
def Brc.ackWhen (b : Brc) (ready : Bool) : Bool := ready && b.busReq

/-- One `cclk` edge with BRC.NOP, the slave performing and acknowledging the pending transaction, if there is one, when it
is ready (R113, R199). -/
def uartEdge (c : Config) (ready : Bool) (p : State × Uart c.regW) : State × Uart c.regW :=
  let request := p.1.brc.transaction c
  let ack := p.1.brc.ackWhen ready
  match exec .brcNop (p.1.driveBus ack (p.2.reply c request).toNat) with
  | .next t => (t, if ack then p.2.perform c request else p.2)
  | .fault _ | .refused _ => p

/-- A run of such edges, one for each readiness bit. -/
def uartRun (c : Config) : List Bool → State × Uart c.regW → State × Uart c.regW
  | [], p => p
  | ready :: more, p => uartRun c more (uartEdge c ready p)

/-- How many requests the slave has acknowledged in such a run. -/
def acknowledged (c : Config) : List Bool → State × Uart c.regW → Nat
  | [], _ => 0
  | ready :: more, p => (p.1.brc.ackWhen ready).toNat + acknowledged c more (uartEdge c ready p)

/-- The four registers BRC reaches are four addresses of the bus: what it takes for each to be a plain register of its own,
the condition of R116. Offsets of R5 that are equal modulo `2^AW` do not meet it (R52). -/
def TargetsApart (c : Config) : Prop := ∀ x y, targetAddress c x = targetAddress c y → x = y

/-- The UART R116 describes after an APPLY of the result `b` holds. -/
def Uart.applied {w : Nat} (u : Uart w) (b : Brc) : Uart w :=
  { u with
    lcr := clearDlab u.lcr
    dll := insertByte u.dll b.dllImg
    dlm := insertByte u.dlm b.dlmImg
    fdr := insertByte u.fdr b.fdrImg }

end Sys2Proof.Machine
end

