-- ==== Sys2Proof/Certificates/Slice0/Obligations.lean ====
section
/-!
DEFINITION. The statements for the provers, each with the rule of the spec it formalises.
A hypothesis `configRefusal s.cfg = none` says that the configuration is one the spec accepts (R5, R7, R55).
-/
open Sys2Proof Sys2Proof.Machine

/-! ## Encoding and the edge that samples a word -/

/-- A word decodes to a command exactly when it is legal and is the command's word, up to the bits the command ignores;
in particular the word of a command decodes to it, with every operand (30_encoding.md R71 to R74). -/
def Obligations.DecodeAndEncodeAgree : Prop :=
  (∀ i : Instr, decode (encode i) = .ok i) ∧
  ∀ (w : CmdWord) (i : Instr), decode w = .ok i ↔ w.wellFormed = true ∧ encode i = w.significant

/-- R83: every word of every port matches exactly one row of the table, whose mnemonic is the decoded command's, or is
reserved and matches none. -/
def Obligations.EveryWordHasOneRowOrIsReserved : Prop :=
  ∀ w : CmdWord,
    (∃ i row, decode w = .ok i ∧ opcodeTable.filter (fun r => r.hits w) = [row] ∧ row.mnemonic = i.mnemonic) ∨
    ((∃ f b, w = .brccmd 0b11#2 f b) ∨ w = .rcmd 0b11#2) ∧
      decode w = .error (.reserved w.domain 0b11) ∧ opcodeTable.filter (fun r => r.hits w) = []

/-- Words written out from R71 to R73 and R84: `START 1536000, 9600` is BRCCMD `01`, `PUSH 0x41` is WCMD `1_0100_0001`,
`POP` is RCMD `01`, and one word of each other command. -/
def Obligations.SampleWordsDecode : Prop :=
  decode (.brccmd 0b01#2 1536000#32 9600#32) = .ok (.brcStart 1536000#32 9600#32) ∧
  decode (.brccmd 0b00#2 7#32 7#32) = .ok .brcNop ∧
  decode (.brccmd 0b10#2 7#32 7#32) = .ok .brcApply ∧
  decode (.wcmd 0b101000001#9) = .ok (.wPush 0x41#8) ∧
  decode (.wcmd 0b011111111#9) = .ok .wNop ∧
  decode (.rcmd 0b00#2) = .ok .rNop ∧
  decode (.rcmd 0b01#2) = .ok .rPop ∧
  decode (.rcmd 0b10#2) = .ok .rFlush

/-- A step runs the decoded command: when the HOST's next step is an edge whose domain is not in reset and whose word
decodes to `i`, the step is `exec i` in the state that has sampled the edge's other inputs (R70, R87).
At a `cclk` edge `bus_ack = 1` answers a pending request, which is the HOST's duty of R199. -/
def Obligations.StepRunsTheDecodedCommand : Prop :=
  ∀ (s : State) (rest : List HostStep) (i : Instr), configRefusal s.cfg = none →
    (∀ op f b ack rdata, s.script = .cclk op f b ack rdata :: rest → s.ports.crstN = true →
      (ack = true → s.brc.busReq = true) → decode (.brccmd op f b) = .ok i → step s = exec i ((s.setScript rest).driveBus ack rdata)) ∧
    (∀ w d, s.script = .wclk w d :: rest → s.ports.wrstN = true →
      decode (.wcmd w) = .ok i → step s = exec i ((s.setScript rest).driveDrawR d)) ∧
    (∀ op d, s.script = .rclk op d :: rest → s.ports.rrstN = true →
      decode (.rcmd op) = .ok i → step s = exec i ((s.setScript rest).driveDrawW d))

/-- With no script line left, the HOST is free: the step is that of some HOST step, the one the free value gives.
This is the model's choice (log 2), and it holds whatever the free value is. -/
def Obligations.EmptyScriptTakesTheFreeHost : Prop :=
  ∀ s : State, s.script = [] →
    step s = step { s with script := [Config.hostStep s.tick], tick := s.tick + 1 }

/-- R167: `brc_cmd = 0b11` or `r_cmd = 0b11` with the domain's reset not asserted faults, with the domain and the word
recorded, whatever else the state holds and the edge samples. -/
def Obligations.ReservedWordFaults : Prop :=
  ∀ (s : State) (rest : List HostStep), configRefusal s.cfg = none →
    (∀ f b ack rdata, s.script = .cclk 0b11#2 f b ack rdata :: rest → s.ports.crstN = true →
      step s = .fault (.reservedCommand .brc 0b11)) ∧
    (∀ d, s.script = .rclk 0b11#2 d :: rest → s.ports.rrstN = true →
      step s = .fault (.reservedCommand .read 0b11))

/-- An edge in an asserted reset takes the reset values and ignores the command port, whatever word it carries
(R174 item 1, R186). At a `cclk` edge `bus_ack = 1` answers a pending request, the HOST's duty of R199. -/
def Obligations.AssertedResetIgnoresCommands : Prop :=
  ∀ (s : State) (rest : List HostStep), configRefusal s.cfg = none →
    (∀ op f b ack rdata, s.script = .cclk op f b ack rdata :: rest → s.ports.crstN = false →
      (ack = true → s.brc.busReq = true) →
      ∃ t, step s = .next t ∧ t.brc = Brc.reset ∧
        t.wr = s.wr ∧ t.rd = s.rd ∧ t.mem = s.mem ∧ t.sampling = s.sampling) ∧
    (∀ w d, s.script = .wclk w d :: rest → s.ports.wrstN = false →
      ∃ t, step s = .next t ∧ t.brc = s.brc ∧ t.wr = WriteDomain.reset s.cfg ∧ t.rd = ReadDomain.reset s.cfg ∧
        t.mem = [] ∧ t.sampling = Sampling.reset) ∧
    (∀ op d, s.script = .rclk op d :: rest → s.ports.rrstN = false →
      ∃ t, step s = .next t ∧ t.brc = s.brc ∧ t.wr = WriteDomain.reset s.cfg ∧ t.rd = ReadDomain.reset s.cfg ∧
        t.mem = [] ∧ t.sampling = Sampling.reset)

/-- Driving the resets: `crst_n = 0` gives BRC its reset values and leaves ARB (R188); both ARB resets at 0 give both
domains their reset values and RING no value, and leave BRC (R187); a released reset changes nothing but its level.
The model's own, not the spec's: that the three levels are driven by one step and the two ARB levels released together
(log 11, DEDUCED), and that the returned byte `popped` becomes none with an ARB reset (log 4, DESIGN CHOICE). -/
def Obligations.ResetsActAsOneStep : Prop :=
  ∀ (s : State) (rest : List HostStep) (c a : Bool), configRefusal s.cfg = none →
    s.script = .resets c a a :: rest →
    ∃ t, step s = .next t ∧
      t.ports = { s.ports with crstN := c, wrstN := a, rrstN := a } ∧
      t.brc = (if c = true then s.brc else Brc.reset) ∧
      t.wr = (if a = true then s.wr else ⟨0, 0, List.replicate (if s.cfg.n = 0 then 0 else s.cfg.stages) 0⟩) ∧
      t.rd = (if a = true then s.rd else ⟨0, 0, List.replicate (if s.cfg.n = 0 then 0 else s.cfg.stages) 0⟩) ∧
      t.mem = (if a = true then s.mem else []) ∧
      t.sampling = (if a = true then s.sampling else ⟨false, 0, false, 0⟩) ∧
      t.popped = (if a = true then s.popped else none) ∧
      t.cfg = s.cfg ∧ t.script = rest ∧ t.tick = s.tick

/-- R7: a configuration is refused for its capacity exactly when `N` is neither 0 nor a power of two in 1..65536. -/
def Obligations.CapacityRefusedExactlyWhenIllegal : Prop :=
  ∀ s : State,
    (step s = .refused (.badCapacity s.cfg.n) ↔ ¬(s.cfg.n = 0 ∨ ∃ k, k ≤ 16 ∧ s.cfg.n = 2 ^ k))

/-- The other refusals of R170: a register address that is not a multiple of `REG_W / 8` (R55), one ARB reset without
the other (R187), a port driven or an output read out of its own clock domain (R163, R201); and an
acknowledgement that answers no request (R199), at an edge whose word is legal or ignored.
The model's own, not the spec's: which addresses and with which rounding alignment is judged (log 10, DEDUCED); that the
release of one ARB reset before the other is refused too (log 11, DEDUCED), where R187 forbids asserting one alone and
releasing before both were in reset; and that a stray acknowledgement, which R197 gives no step, is a refusal (log 14,
DEDUCED). -/
def Obligations.ForbiddenActionsAreRefused : Prop :=
  (∀ s : State, (∃ off ∈ [s.cfg.offDll, s.cfg.offDlm, s.cfg.offIirFcr, s.cfg.offLcr, s.cfg.offLsr, s.cfg.offFdr],
      ((s.cfg.uartBase + off) % 2 ^ s.cfg.aw) % (s.cfg.regW / 8) ≠ 0) → ∃ r, step s = .refused r) ∧
  (∀ (s : State) (rest : List HostStep) (c w r : Bool), configRefusal s.cfg = none →
      s.script = .resets c w r :: rest → w ≠ r → step s = .refused .partialArbReset) ∧
  (∀ (s : State) (rest : List HostStep) (p : Domain), configRefusal s.cfg = none →
      (s.script = .portOutOfDomain p :: rest → step s = .refused (.portOutOfDomain p)) ∧
      (s.script = .readOutOfDomain p :: rest → step s = .refused (.readOutOfDomain p))) ∧
  (∀ (s : State) (rest : List HostStep) (op : BitVec 2) (f b : Word32) (rdata : Nat), configRefusal s.cfg = none →
      s.script = .cclk op f b true rdata :: rest → s.brc.busReq = false → op ≠ 0b11#2 ∨ s.ports.crstN = false →
      step s = .refused .ackWithoutRequest)

/-! ## The baud-rate calculator -/

/-- R90: BRC.NOP has no effect of its own; with `busy = 0` nothing changes, and with `busy = 1` only the calculation or
the APPLY in progress moves on. -/
def Obligations.BrcNopOnlyLetsWorkProgress : Prop :=
  ∀ s : State,
    (s.brc.busy = false → exec .brcNop s = .next s) ∧
    (s.brc.busy = true → s.brc.op = .calc → exec .brcNop s = .next { s with brc := s.brc.calcStep s.cfg }) ∧
    (s.brc.busy = true → s.brc.op = .apply →
      exec .brcNop s =
        .next { s with brc := s.brc.transactionStep s.cfg s.ports.busAck s.ports.busRdata })

/-- R91: an accepted BRC.START latches the operands, clears the result and the flags and starts the calculation, and
changes nothing else. -/
def Obligations.StartLatchesOperandsAndClearsResult : Prop :=
  ∀ (s : State) (f b : Word32),
    (s.brc.busy = false →
      exec (.brcStart f b) s = .next { s with brc := { s.brc with
        inClk := f, inBaud := b, resDl := 0#16, resDivadd := 0#4, resMul := 1#4, resUnach := false,
        resValid := false, applySkipped := false, op := .calc, lat := s.cfg.brcLatency, busy := true,
        done := false } }) ∧
    (s.brc.busy = true → exec (.brcStart f b) s = exec .brcNop s)

/-- R92: a BRC.START or BRC.APPLY sampled while `busy = 1` is ignored; the edge is that of a BRC.NOP. -/
def Obligations.CommandsIgnoredWhileBusy : Prop :=
  ∀ (s : State) (f b : Word32), s.brc.busy = true →
    exec (.brcStart f b) s = exec .brcNop s ∧ exec .brcApply s = exec .brcNop s

/-- R93: with a calculation in progress, every BRC command's edge counts `lat` down, and the edge that finds `lat = 1`
writes the result of BRC_FUNC and the flags. -/
def Obligations.CalculationCountsDownAndCompletes : Prop :=
  ∀ (s : State) (i : Instr) (r : BaudResult), i.domain = .brc → s.brc.busy = true → s.brc.op = .calc →
    r = brcFunc s.cfg.divRound s.brc.inClk.toNat s.brc.inBaud.toNat →
    exec i s = .next { s with brc :=
      if s.brc.lat = 1 then { s.brc with
        lat := 0, resDl := BitVec.ofNat 16 r.dl, resDivadd := BitVec.ofNat 4 r.num, resMul := BitVec.ofNat 4 r.den,
        resUnach := decide (r.dl = 0), resValid := true, busy := false, done := true }
      else { s.brc with lat := s.brc.lat - 1 } }

/-- From an accepted BRC.START, exactly `BRC_LATENCY` further `cclk` edges with any legal words and read data, and with
`bus_ack = 0` as no request is pending (R199), complete the calculation, no fewer do, the result is BRC_FUNC of the operands latched at the START, and ARB is not
touched (R19, R28, R91, R93, R196, R205). -/
def Obligations.StartCompletesAfterLatency : Prop :=
  ∀ (s : State) (f b : Word32) (rdata : Nat) (es : List HostStep) (r : BaudResult),
    configRefusal s.cfg = none → s.ports.crstN = true → s.brc.busy = false →
    (∀ e ∈ es, silentBrcEdge e = true) → es.length ≤ s.cfg.brcLatency →
    r = brcFunc s.cfg.divRound f.toNat b.toNat →
    ∃ t, play (.cclk 0b01#2 f b false rdata :: es) s = .next t ∧
      t.wr = s.wr ∧ t.rd = s.rd ∧ t.mem = s.mem ∧ t.sampling = s.sampling ∧
      (es.length < s.cfg.brcLatency → t.brc.busy = true ∧ t.brc.done = false ∧ t.brc.resValid = false) ∧
      (es.length = s.cfg.brcLatency →
        t.brc.busy = false ∧ t.brc.done = true ∧ t.brc.resValid = true ∧ t.brc.inClk = f ∧ t.brc.inBaud = b ∧
        t.brc.resDl = BitVec.ofNat 16 r.dl ∧ t.brc.resDivadd = BitVec.ofNat 4 r.num ∧
        t.brc.resMul = BitVec.ofNat 4 r.den ∧ t.brc.resUnach = decide (r.dl = 0))

/-- R94 to R96, R101: BRC_FUNC is the sentinel for a zero input or a candidate divisor out of 1..65535, and otherwise
the candidate divisor with the pair of least exact relative error, smallest denominator first, then smallest
numerator. -/
def Obligations.BrcFuncFindsTheClosestFraction : Prop :=
  ∀ (r : DivRound) (f b d0 : Nat),
    d0 = (match r with | .trunc => f / (16 * b) | .nearest => (f + 8 * b) / (16 * b)) →
    (f = 0 ∨ b = 0 ∨ d0 = 0 ∨ 65535 < d0 → brcFunc r f b = ⟨0, 0, 1⟩) ∧
    (¬(f = 0 ∨ b = 0 ∨ d0 = 0 ∨ 65535 < d0) →
      ∃ n d, brcFunc r f b = ⟨d0, n, d⟩ ∧ LeastError f (16 * d0 * b) n d ∧
        ∀ n' d', LeastError f (16 * d0 * b) n' d' → d < d' ∨ d = d' ∧ n ≤ n')

/-- R100, last clause, and 90_conflicts.md C7: the smallest denominator that reaches the least error belongs to one
numerator, so the second tie-break never decides. -/
def Obligations.NumeratorTieBreakNeverDecides : Prop :=
  ∀ f k n₁ n₂ d : Nat, 0 < k → LeastError f k n₁ d → LeastError f k n₂ d →
    (∀ n' d', LeastError f k n' d' → d ≤ d') → n₁ = n₂

/-- R103: a result is the sentinel or a divisor in 1..65535 with a proper fraction of denominator at most 15. -/
def Obligations.BrcFuncResultIsLegal : Prop :=
  ∀ (r : DivRound) (f b : Nat),
    brcFunc r f b = ⟨0, 0, 1⟩ ∨
    (1 ≤ (brcFunc r f b).dl ∧ (brcFunc r f b).dl ≤ 65535 ∧ 1 ≤ (brcFunc r f b).den ∧ (brcFunc r f b).den ≤ 15 ∧
      (brcFunc r f b).num < (brcFunc r f b).den)

/-- R105: the exact thresholds of the sentinel for both roundings. -/
def Obligations.SentinelThresholds : Prop :=
  ∀ f b : Nat, 0 < f → 0 < b →
    (brcFunc .trunc f b = ⟨0, 0, 1⟩ ↔ f < 16 * b ∨ 1048576 * b ≤ f) ∧
    (brcFunc .nearest f b = ⟨0, 0, 1⟩ ↔ f < 8 * b ∨ 1048568 * b ≤ f)

/-- R104: all pairs `(0, d)` have one error; a result with numerator 0 has denominator 1; and an exact multiple of
`16 * B` within range gives `(F / (16 * B), 0, 1)` with either rounding. -/
def Obligations.ZeroNumeratorHasDenominatorOne : Prop :=
  (∀ f k d d' : Nat, ErrorAtMost f k 0 d 0 d') ∧
  (∀ (r : DivRound) (f b : Nat), (brcFunc r f b).num = 0 → (brcFunc r f b).den = 1) ∧
  (∀ (r : DivRound) (q b : Nat), 0 < b → 1 ≤ q → q ≤ 65535 → brcFunc r (16 * b * q) b = ⟨q, 0, 1⟩)

/-- R102: the bounds of the search's intermediate values for 32-bit inputs and both roundings. -/
def Obligations.SearchArithmeticBounds : Prop :=
  ∀ (r : DivRound) (f b d0 n d : Nat), f < 2 ^ 32 → b < 2 ^ 32 → 0 < b →
    d0 = candidateDivisor r f b → FractionPair n d →
    f * d < 2 ^ 36 ∧ 16 * b * d0 ≤ f + 8 * b ∧ f + 8 * b < 2 ^ 36 ∧ d + n ≤ 29 ∧
    rateScale d0 b * (d + n) < 2 ^ 41 ∧ absError f (rateScale d0 b) n d < 2 ^ 41 ∧
    absError f (rateScale d0 b) n d * (d + n) < 2 ^ 46

/-- R109: the worked examples with `DIV_ROUND = trunc`. -/
def Obligations.WorkedBaudExamples : Prop :=
  brcFunc .trunc 1536000 9600 = ⟨10, 0, 1⟩ ∧
  brcFunc .trunc 12000000 115200 = ⟨6, 1, 12⟩ ∧
  brcFunc .trunc 1536000 60000 = ⟨1, 3, 5⟩ ∧
  brcFunc .trunc 1536000 96001 = ⟨0, 0, 1⟩ ∧
  brcFunc .trunc 1048576 1 = ⟨0, 0, 1⟩

/-! ## Applying the result -/

/-- R111: BRC.APPLY is ignored while busy, skipped without an achievable result, and otherwise starts the sequence at
row 1; nothing else changes. -/
def Obligations.ApplyIsSkippedOrAccepted : Prop :=
  ∀ s : State,
    (s.brc.busy = true → exec .brcApply s = exec .brcNop s) ∧
    (s.brc.busy = false → s.brc.resValid = false ∨ s.brc.resUnach = true →
      exec .brcApply s = .next { s with brc := { s.brc with applySkipped := true, done := true } }) ∧
    (s.brc.busy = false → s.brc.resValid = true → s.brc.resUnach = false →
      exec .brcApply s = .next { s with brc := { s.brc with
        applySkipped := false, done := false, busy := true, op := .apply, seq := 1#4, busPend := false,
        lock := false } })

/-- R118: a skipped APPLY issues no transaction at its edge or at any later edge until the next command; with no request
there is no acknowledgement (R199). -/
def Obligations.SkippedApplyTouchesNoRegister : Prop :=
  ∀ (s : State) (f b : Word32) (rdata : Nat) (es : List HostStep),
    configRefusal s.cfg = none → s.ports.crstN = true → BrcInv s.cfg s.brc → s.brc.busy = false →
    s.brc.resValid = false ∨ s.brc.resUnach = true →
    (∀ e ∈ es, ∃ f' b' rdata', e = .cclk 0b00#2 f' b' false rdata') →
    ∃ t, play (.cclk 0b10#2 f b false rdata :: es) s = .next t ∧
      t.brc.busReq = false ∧ t.brc.busLock = false ∧ t.brc.applySkipped = true ∧ t.brc.done = true

/-- R112: the ten transactions, each with its direction, address and write data, `t` being `bus_tmp`. -/
def Obligations.TransactionTable : Prop :=
  ∀ (c : Config) (b : Brc) (t : BitVec c.regW), t = BitVec.ofNat c.regW b.busTmp →
    (b.seq = 1#4 → b.transaction c = some (.read (BitVec.ofNat c.aw (c.uartBase + c.offLcr)))) ∧
    (b.seq = 2#4 → b.transaction c =
      some (.write (BitVec.ofNat c.aw (c.uartBase + c.offLcr)) (t ||| 0x80#c.regW))) ∧
    (b.seq = 3#4 → b.transaction c = some (.read (BitVec.ofNat c.aw (c.uartBase + c.offDll)))) ∧
    (b.seq = 4#4 → b.transaction c = some (.write (BitVec.ofNat c.aw (c.uartBase + c.offDll))
      ((t &&& ~~~0xFF#c.regW) ||| (b.resDl.extractLsb' 0 8).setWidth c.regW))) ∧
    (b.seq = 5#4 → b.transaction c = some (.read (BitVec.ofNat c.aw (c.uartBase + c.offDlm)))) ∧
    (b.seq = 6#4 → b.transaction c = some (.write (BitVec.ofNat c.aw (c.uartBase + c.offDlm))
      ((t &&& ~~~0xFF#c.regW) ||| (b.resDl.extractLsb' 8 8).setWidth c.regW))) ∧
    (b.seq = 7#4 → b.transaction c = some (.read (BitVec.ofNat c.aw (c.uartBase + c.offLcr)))) ∧
    (b.seq = 8#4 → b.transaction c =
      some (.write (BitVec.ofNat c.aw (c.uartBase + c.offLcr)) (t &&& ~~~0x80#c.regW))) ∧
    (b.seq = 9#4 → b.transaction c = some (.read (BitVec.ofNat c.aw (c.uartBase + c.offFdr)))) ∧
    (b.seq = 10#4 → b.transaction c = some (.write (BitVec.ofNat c.aw (c.uartBase + c.offFdr))
      ((t &&& ~~~0xFF#c.regW) ||| (b.resMul ++ b.resDivadd).setWidth c.regW)))

/-- R113: with an APPLY in progress, every BRC command's edge issues the transaction of row `seq`, completes it when
`bus_ack = 1`, or holds; the request outputs come from registers. -/
def Obligations.TransactionStepIssuesCompletesOrHolds : Prop :=
  (∀ (s : State) (i : Instr), i.domain = .brc → s.brc.busy = true → s.brc.op = .apply →
    1#4 ≤ s.brc.seq → s.brc.seq ≤ 10#4 →
    (s.brc.busPend = false →
      exec i s = .next { s with brc := { s.brc with
        busPend := true, lock := s.brc.lock || decide (s.brc.seq = 1#4) } }) ∧
    (s.brc.busPend = true → s.ports.busAck = true →
      exec i s = .next { s with brc := { s.brc with
        busTmp := (if s.brc.seq.getLsbD 0 = true then s.ports.busRdata % 2 ^ s.cfg.regW else s.brc.busTmp)
        busPend := false
        lock := s.brc.lock && !decide (s.brc.seq = 8#4)
        seq := (if s.brc.seq = 10#4 then 0#4 else s.brc.seq + 1#4)
        busy := !decide (s.brc.seq = 10#4)
        done := s.brc.done || decide (s.brc.seq = 10#4) } }) ∧
    (s.brc.busPend = true → s.ports.busAck = false → exec i s = .next s)) ∧
  (∀ (c : Config) (b : Brc), 1#4 ≤ b.seq → b.seq ≤ 10#4 →
    b.busReq = b.busPend ∧ b.busLock = b.lock ∧ (b.busWe = !b.seq.getLsbD 0) ∧
    (b.busPend = true →
      (∀ a, b.transaction c = some (.read a) → b.busAddr c = some a) ∧
      (∀ a v, b.transaction c = some (.write a v) → b.busAddr c = some a ∧ b.busWdata c = some v)))

/-- R120: a transaction that is never acknowledged leaves BRC as it is for ever, with `busy = 1` and, in rows 1 to 8,
the lock held. -/
def Obligations.UnacknowledgedTransactionHoldsForEver : Prop :=
  ∀ (s : State) (es : List HostStep), configRefusal s.cfg = none → s.ports.crstN = true →
    BrcInv s.cfg s.brc → s.brc.waitsForAck = true → (∀ e ∈ es, silentBrcEdge e = true) →
    ∃ t, play es s = .next t ∧ t.brc = s.brc ∧ t.brc.busy = true ∧ (s.brc.seq ≤ 8#4 → t.brc.busLock = true)

/-- R114: every write row is preceded by the read row of the same register, and its data is the read data with only the
target field replaced: LCR bit 7, or bits 7..0. -/
def Obligations.WritesPreserveOtherBits : Prop :=
  ∀ (c : Config) (b : Brc) (j : Nat), j < c.regW →
    (∀ v, b.writeData c = some v →
      (b.seq = 2#4 → v.getLsbD j = if j = 7 then true else (b.tmp c).getLsbD j) ∧
      (b.seq = 4#4 → v.getLsbD j = if j < 8 then b.resDl.getLsbD j else (b.tmp c).getLsbD j) ∧
      (b.seq = 6#4 → v.getLsbD j = if j < 8 then b.resDl.getLsbD (8 + j) else (b.tmp c).getLsbD j) ∧
      (b.seq = 8#4 → v.getLsbD j = if j = 7 then false else (b.tmp c).getLsbD j) ∧
      (b.seq = 10#4 → v.getLsbD j =
        if j < 4 then b.resDivadd.getLsbD j else if j < 8 then b.resMul.getLsbD (j - 4)
        else (b.tmp c).getLsbD j)) ∧
    (∀ row, busRow b.seq = some row → row.write = true →
      busRow (b.seq - 1#4) = some { row with write := false })

/-- From R112, R114, R116 and R45: beside a slave of plain registers that acknowledges each request after any delay, with
BRC.NOP driven meanwhile (a BRC.START or BRC.APPLY then is ignored, R92, R123, which `CommandsIgnoredWhileBusy` says), and that holds the
four registers at four addresses, without which they are no plain registers (log 12), an accepted APPLY that has finished
leaves LCR with DLAB 0 and every other bit kept, the divisor bytes in DLL and DLM, the fraction in FDR, the bits above 7
kept, and no other register of the UART touched. Where IIR and FCR or LSR share an address with one of the four, which of
the two it reaches is the model's choice (log 20). -/
def Obligations.ApplyLeavesTheUartConfigured : Prop :=
  ∀ (s : State) (u : Uart s.cfg.regW), configRefusal s.cfg = none → TargetsApart s.cfg → s.brc.busy = false →
    s.brc.canApply = true →
    ∃ t, exec .brcApply s = .next t ∧
      ∀ ready : List Bool, (uartRun s.cfg ready (t, u)).1.brc.busy = false →
        (uartRun s.cfg ready (t, u)).2 = { u with
          lcr := u.lcr &&& ~~~0x80#s.cfg.regW
          dll := (u.dll &&& ~~~0xFF#s.cfg.regW) ||| (s.brc.resDl.extractLsb' 0 8).setWidth s.cfg.regW
          dlm := (u.dlm &&& ~~~0xFF#s.cfg.regW) ||| (s.brc.resDl.extractLsb' 8 8).setWidth s.cfg.regW
          fdr := (u.fdr &&& ~~~0xFF#s.cfg.regW) ||| (s.brc.resMul ++ s.brc.resDivadd).setWidth s.cfg.regW }

/-- An APPLY beside such a slave is finished exactly when the slave has acknowledged its ten requests, never
acknowledges more, takes twenty edges or more and no more than twenty at which the slave is ready; and then `done` is set
and the bus released (R112, R113, R199, R204, R205). -/
def Obligations.ApplyFinishesWhenAcknowledged : Prop :=
  ∀ (s : State) (u : Uart s.cfg.regW) (t : State) (ready : List Bool),
    s.brc.busy = false → s.brc.canApply = true → exec .brcApply s = .next t →
    acknowledged s.cfg ready (t, u) ≤ 10 ∧
    ((uartRun s.cfg ready (t, u)).1.brc.busy = false ↔ acknowledged s.cfg ready (t, u) = 10) ∧
    (ready.length < 20 → (uartRun s.cfg ready (t, u)).1.brc.busy = true) ∧
    (20 ≤ ready.count true → (uartRun s.cfg ready (t, u)).1.brc.busy = false) ∧
    ((uartRun s.cfg ready (t, u)).1.brc.busy = false →
      (uartRun s.cfg ready (t, u)).1.brc.done = true ∧ (uartRun s.cfg ready (t, u)).1.brc.seq = 0#4 ∧
      (uartRun s.cfg ready (t, u)).1.brc.busReq = false ∧ (uartRun s.cfg ready (t, u)).1.brc.busLock = false)

/-- A second APPLY of the same result is accepted and, run to its end, leaves the UART as the first left it, whatever the
delays of the two (R117), under the conditions of R116, the four registers at four addresses among them (log 12; log 20
for an address shared with another register). -/
def Obligations.ApplyIsIdempotent : Prop :=
  ∀ (s : State) (u : Uart s.cfg.regW) (t₁ : State) (ready₁ : List Bool),
    configRefusal s.cfg = none → TargetsApart s.cfg → s.brc.busy = false → s.brc.canApply = true →
    exec .brcApply s = .next t₁ → (uartRun s.cfg ready₁ (t₁, u)).1.brc.busy = false →
    ∃ t₂, exec .brcApply (uartRun s.cfg ready₁ (t₁, u)).1 = .next t₂ ∧ t₂.brc.busy = true ∧
      ∀ ready₂ : List Bool,
        (uartRun s.cfg ready₂ (t₂, (uartRun s.cfg ready₁ (t₁, u)).2)).1.brc.busy = false →
        (uartRun s.cfg ready₂ (t₂, (uartRun s.cfg ready₁ (t₁, u)).2)).2 = (uartRun s.cfg ready₁ (t₁, u)).2

/-- R75, R76, R78: the images are the divisor's bytes and the fraction, and show `0x00, 0x00, 0x10` while `brc_valid = 0`;
numerator 1 and denominator 12 give `0xC1`. -/
def Obligations.ImagesShowTheResult : Prop :=
  (∀ b : Brc, b.dllImg.toNat = b.resDl.toNat % 256 ∧ b.dlmImg.toNat = b.resDl.toNat / 256 ∧
    b.fdrImg.toNat = 16 * b.resMul.toNat + b.resDivadd.toNat) ∧
  (∀ b : Brc, b.resDivadd = 1#4 → b.resMul = 12#4 → b.fdrImg = 0xC1#8) ∧
  (∀ (c : Config) (b : Brc), BrcInv c b → b.resValid = false →
    b.dllImg = 0x00#8 ∧ b.dlmImg = 0x00#8 ∧ b.fdrImg = 0x10#8)

/-- R79: after a completion with a divisor the denominator field is in 1..15 and above the numerator field, which is at
most 14; the sentinel shows `0x10`. -/
def Obligations.FdrImageIsLegal : Prop :=
  ∀ (c : Config) (b : Brc), BrcInv c b → b.resValid = true →
    (b.resUnach = false → 1 ≤ b.resMul.toNat ∧ b.resMul.toNat ≤ 15 ∧ b.resDivadd.toNat < b.resMul.toNat ∧
      b.resDivadd.toNat ≤ 14) ∧
    (b.resUnach = true → b.fdrImg = 0x10#8)

/-- Every step keeps what R22 to R31 and R115 say of BRC's registers, from every state that meets it. -/
def Obligations.StepKeepsTheBrcRegistersLegal : Prop :=
  ∀ s t : State, BrcInv s.cfg s.brc → step s = .next t → BrcInv t.cfg t.brc

/-! ## The ring buffer -/

/-- R150: the gray code, its inverse bit by bit, and the one-bit change between neighbours, the wrap included. -/
def Obligations.GrayCodeIsInvertibleAndOneBit : Prop :=
  (∀ b, gray b = b ^^^ (b >>> 1)) ∧
  (∀ w b, b < 2 ^ w → gray b < 2 ^ w ∧ bin w (gray b) = b) ∧
  (∀ w g, g < 2 ^ w → bin w g < 2 ^ w ∧ gray (bin w g) = g) ∧
  (∀ w g i, g < 2 ^ w → i < w →
    (bin w g).testBit i = ((List.range (w - i)).map fun j => g.testBit (i + j)).foldr Bool.xor false) ∧
  (∀ w b, 0 < w → b < 2 ^ w → ∃ i, i < w ∧ gray b ^^^ gray ((b + 1) % 2 ^ w) = 2 ^ i) ∧
  (List.range 8).map gray = [0b000, 0b001, 0b011, 0b010, 0b110, 0b111, 0b101, 0b100]

/-- R152: the first stage captures the source exactly when it has not changed, and the drawn one of the current and the
previous value when it has. -/
def Obligations.FirstStageCapturesCurrentOrPrevious : Prop :=
  ∀ s : State,
    (s.sampling.wChg = false → s.sampleW = s.wr.wgray) ∧
    (s.sampling.wChg = true → s.ports.drawW = .current → s.sampleW = s.wr.wgray) ∧
    (s.sampling.wChg = true → s.ports.drawW = .previous → s.sampleW = s.sampling.wPrev) ∧
    (s.sampling.rChg = false → s.sampleR = s.rd.rgray) ∧
    (s.sampling.rChg = true → s.ports.drawR = .current → s.sampleR = s.rd.rgray) ∧
    (s.sampling.rChg = true → s.ports.drawR = .previous → s.sampleR = s.sampling.rPrev)

/-- R151: at every edge of a domain, whatever command completes, that domain's synchroniser shifts by one stage and the
other domain's does not move. -/
def Obligations.EveryEdgeShiftsItsSynchroniser : Prop :=
  ∀ (s t : State) (i : Instr), exec i s = .next t →
    (i.domain = .write →
      t.rd.wqR = s.rd.wqR ∧ t.wr.rqW.length = s.wr.rqW.length ∧
      (0 < s.wr.rqW.length → t.wr.rqW[0]? = some s.sampleR) ∧
      (∀ j, j + 1 < s.wr.rqW.length → t.wr.rqW[j + 1]? = s.wr.rqW[j]?)) ∧
    (i.domain = .read →
      t.wr.rqW = s.wr.rqW ∧ t.rd.wqR.length = s.rd.wqR.length ∧
      (0 < s.rd.wqR.length → t.rd.wqR[0]? = some s.sampleW) ∧
      (∀ j, j + 1 < s.rd.wqR.length → t.rd.wqR[j + 1]? = s.rd.wqR[j]?))

/-- R153: a `wclk` edge clears `r_chg`, and marks a change of `wgray` with the value before it; an `rclk` edge does the
same with the roles exchanged. -/
def Obligations.SamplingBitsTrackPointerChanges : Prop :=
  ∀ (s t : State) (i : Instr), exec i s = .next t →
    (i.domain = .write →
      t.sampling.rChg = false ∧ t.sampling.rPrev = s.sampling.rPrev ∧
      (t.wr.wgray ≠ s.wr.wgray → t.sampling.wChg = true ∧ t.sampling.wPrev = s.wr.wgray) ∧
      (t.wr.wgray = s.wr.wgray → t.sampling.wChg = s.sampling.wChg ∧ t.sampling.wPrev = s.sampling.wPrev)) ∧
    (i.domain = .read →
      t.sampling.wChg = false ∧ t.sampling.wPrev = s.sampling.wPrev ∧
      (t.rd.rgray ≠ s.rd.rgray → t.sampling.rChg = true ∧ t.sampling.rPrev = s.rd.rgray) ∧
      (t.rd.rgray = s.rd.rgray → t.sampling.rChg = s.sampling.rChg ∧ t.sampling.rPrev = s.sampling.rPrev))

/-- R125, R137: W.NOP and R.NOP complete in every state and change no pointer and no byte: only their own domain's
synchroniser stages and the sampling bits may change. -/
def Obligations.ArbNopsMoveNoPointer : Prop :=
  ∀ s : State,
    (∃ q x, exec .wNop s = .next { s with wr := { s.wr with rqW := q }, sampling := x }) ∧
    (∃ q x, exec .rNop s = .next { s with rd := { s.rd with wqR := q }, sampling := x })

/-- R126: a push with `w_full = 0` stores its byte at slot `wbin[k-1:0]`, moves both copies of the write pointer to the
next count modulo `2^PW`, and changes no other byte and nothing of the read domain or of BRC. -/
def Obligations.AcceptedPushStoresItsByte : Prop :=
  ∀ (s : State) (d : Byte), s.wFull = false →
    ∃ t, exec (.wPush d) s = .next t ∧
      t.wr.wbin = (s.wr.wbin + 1) % 2 ^ s.cfg.pw ∧ t.wr.wgray = gray ((s.wr.wbin + 1) % 2 ^ s.cfg.pw) ∧
      Memory.read t.mem (s.wr.wbin % 2 ^ s.cfg.k) = some d ∧
      (∀ a, a ≠ s.wr.wbin % 2 ^ s.cfg.k → Memory.read t.mem a = Memory.read s.mem a) ∧
      t.rd = s.rd ∧ t.brc = s.brc ∧ t.popped = s.popped ∧ t.cfg = s.cfg ∧ t.ports = s.ports ∧
      t.script = s.script ∧ t.tick = s.tick

/-- R127: a push with `w_full = 1` discards its byte with no indication; the edge is that of a W.NOP, which changes no
pointer and no byte. -/
def Obligations.PushOnFullIsDropped : Prop :=
  ∀ (s : State) (d : Byte), s.wFull = true →
    ∃ t, exec (.wPush d) s = .next t ∧ exec .wNop s = .next t ∧
      t.wr.wbin = s.wr.wbin ∧ t.wr.wgray = s.wr.wgray ∧ t.mem = s.mem ∧ t.rd = s.rd ∧ t.brc = s.brc

/-- R138: a pop with `r_empty = 0` returns the byte of slot `rbin[k-1:0]`, moves both copies of the read pointer to the
next count modulo `2^PW`, and changes no byte and nothing of the write domain or of BRC. -/
def Obligations.PopReturnsTheOldestByte : Prop :=
  ∀ s : State, s.rEmpty = false →
    ∃ t, exec .rPop s = .next t ∧ t.popped = Memory.read s.mem (s.rd.rbin % 2 ^ s.cfg.k) ∧
      t.rd.rbin = (s.rd.rbin + 1) % 2 ^ s.cfg.pw ∧ t.rd.rgray = gray ((s.rd.rbin + 1) % 2 ^ s.cfg.pw) ∧
      t.mem = s.mem ∧ t.wr = s.wr ∧ t.brc = s.brc ∧ t.cfg = s.cfg ∧ t.ports = s.ports ∧
      t.script = s.script ∧ t.tick = s.tick

/-- R139, R166: a pop with `r_empty = 1`, and every pop with `N = 0`, raises the fault that records the read domain and
`rbin`, and no command faults otherwise: not another command, and not a pop with `r_empty = 0`.
Which number the model keeps as `rbin` with `N = 0` is its own choice (log 17), and this says nothing of it. -/
def Obligations.PopOfAnEmptyViewFaults : Prop :=
  ∀ s : State, (s.rEmpty = true → exec .rPop s = .fault (.popEmpty .read s.rd.rbin)) ∧
    (s.cfg.n = 0 → exec .rPop s = .fault (.popEmpty .read s.rd.rbin)) ∧
    (∀ (i : Instr) (r : Fault), exec i s = .fault r → i = .rPop ∧ s.rEmpty = true ∧ r = .popEmpty .read s.rd.rbin)

/-- R140: a flush sets the read pointer to the view of the write pointer from before the edge, completes in every state,
and changes no byte and nothing of the write domain or of BRC; with `N = 0` it moves no pointer (R146). -/
def Obligations.FlushTakesTheWritePointerView : Prop :=
  ∀ s : State,
    ∃ t, exec .rFlush s = .next t ∧
      (s.cfg.n ≠ 0 → t.rd.rbin = bin s.cfg.pw s.wgrayR ∧ t.rd.rgray = s.wgrayR) ∧
      (s.cfg.n = 0 → t.rd.rbin = s.rd.rbin ∧ t.rd.rgray = s.rd.rgray) ∧
      t.mem = s.mem ∧ t.wr = s.wr ∧ t.brc = s.brc ∧ t.popped = s.popped ∧ t.cfg = s.cfg ∧ t.ports = s.ports ∧
      t.script = s.script ∧ t.tick = s.tick

/-- R146: with `N = 0` the outputs are constants, every push drops, every pop faults, and nothing changes.
Which number the model keeps as `rbin` then is its own choice (log 17), and this says nothing of it. -/
def Obligations.ZeroCapacityHoldsNothing : Prop :=
  ∀ (s : State) (d : Byte), s.cfg.n = 0 → RingInv s →
    s.wLevel = 0 ∧ s.rLevel = 0 ∧ s.wFull = true ∧ s.wEmpty = true ∧ s.rFull = true ∧ s.rEmpty = true ∧
    s.rData = none ∧
    exec (.wPush d) s = .next s ∧ exec .wNop s = .next s ∧ exec .rNop s = .next s ∧ exec .rFlush s = .next s ∧
    exec .rPop s = .fault (.popEmpty .read s.rd.rbin)

/-- Every step keeps the counting and storage invariants of R158 and R159, from every state that meets them and in every
interleaving and under every draw (R161). -/
def Obligations.StepKeepsTheRingInvariant : Prop :=
  ∀ s t : State, RingInv s → step s = .next t → RingInv t

/-- R156: read as unbounded counts, no pointer and no view ever decreases, and no view passes its source; the write
count moves by an accepted push alone, the read count by the bytes that leave. -/
def Obligations.ViewsNeverDecrease : Prop :=
  ∀ (s t : State) (i : Instr) (wc wp : Nat) (wv : List Nat) (rc rp : Nat) (rv : List Nat),
    RingCounts s wc wp wv rc rp rv → exec i s = .next t →
    ∃ wp' wv' rp' rv',
      RingCounts t (wc + (s.acceptedBy i).length) wp' wv' (rc + (s.leavingBy i).length) rp' rv' ∧
      lastStage wv ≤ lastStage wv' ∧ lastStage wv' ≤ wc + (s.acceptedBy i).length ∧
      lastStage rv ≤ lastStage rv' ∧ lastStage rv' ≤ rc + (s.leavingBy i).length

/-- R129, R142: each view's level is in `0..N` and is not both full and empty unless `N = 0`; the read view counts no
more than the live bytes, the write view no fewer (R130), and every byte the reader sees was written. -/
def Obligations.LevelsBracketTheLiveBytes : Prop :=
  ∀ s : State, RingInv s →
    s.rLevel ≤ s.live.length ∧ s.live.length ≤ s.wLevel ∧ s.wLevel ≤ s.cfg.n ∧
    (s.wFull = true ∧ s.wEmpty = true → s.cfg.n = 0) ∧ (s.rFull = true ∧ s.rEmpty = true → s.cfg.n = 0) ∧
    (∀ x ∈ s.live, x.isSome = true) ∧ (s.rEmpty = false → s.rData.isSome = true)

/-- R128, R136: the gray-compare forms of full and empty agree with the level forms wherever the ring invariant holds
and there is a ring. -/
def Obligations.GrayCompareFormsAgree : Prop :=
  ∀ s : State, RingInv s → s.cfg.n ≠ 0 →
    s.wFull = s.wFullByGray ∧ s.wEmpty = decide (s.wr.wgray = s.rgrayW) ∧
    s.rEmpty = decide (s.rd.rgray = s.wgrayR)

/-- Every command is a step of a FIFO queue: the live bytes with the accepted byte behind them are the leaving bytes
with the new live bytes behind those (R62, R63, R126, R138, R140, R141, R159). -/
def Obligations.EveryCommandIsAQueueStep : Prop :=
  ∀ (s t : State) (i : Instr), RingInv s → exec i s = .next t →
    s.live ++ s.acceptedBy i = s.leavingBy i ++ t.live

/-- R63: over any run that never drives the ARB resets to 0 (edges of all domains and resets of BRC, which R188 lets
happen at any time), from any state of the ring invariant, the bytes that were live with the bytes
accepted behind them are the bytes that left, in order, with the bytes still live behind them; from reset, where nothing
is live, the j-th byte that leaves is the byte of the j-th accepted push. -/
def Obligations.BytesLeaveInPushOrder : Prop :=
  (∀ (es : List HostStep) (s u : State) (accepted left : List (Option Byte)),
    RingInv s → s.ports.wrstN = true → s.ports.rrstN = true →
    (∀ e ∈ es, ∀ c w r, e = .resets c w r → w = true ∧ r = true) →
    playBytes es s = some (accepted, left, u) →
    s.live ++ accepted = left ++ u.live ∧ ∀ x ∈ accepted, x.isSome = true) ∧
  (∀ c : Config, (State.resetOf c).live = [])

/-- From R155, for consecutive NOP edges of the destination domain and no other edge among them: the destination's view
equals the source pointer after `S + 1` R.NOP or W.NOP edges under every draw and after `S` when no sample is missed, and
the first `S - 1` show only what was in the stages. Edges with another command shift the stages alike, which
`EveryEdgeShiftsItsSynchroniser` says edge by edge. -/
def Obligations.ViewCatchesUpWithinLatency : Prop :=
  ∀ (s : State) (ds : List Draw), configRefusal s.cfg = none →
    (s.ports.rrstN = true → s.rd.wqR.length = s.cfg.stages →
      ∃ t, play (ds.map fun d => .rclk 0b00#2 d) s = .next t ∧ t.wr = s.wr ∧
        (s.cfg.stages + 1 ≤ ds.length → t.wgrayR = s.wr.wgray) ∧
        (s.cfg.stages ≤ ds.length → (∀ d ∈ ds, d = .current) → t.wgrayR = s.wr.wgray) ∧
        (ds.length < s.cfg.stages → s.rd.wqR[s.cfg.stages - 1 - ds.length]? = some t.wgrayR)) ∧
    (s.ports.wrstN = true → s.wr.rqW.length = s.cfg.stages →
      ∃ t, play (ds.map fun d => .wclk 0b000000000#9 d) s = .next t ∧ t.rd = s.rd ∧
        (s.cfg.stages + 1 ≤ ds.length → t.rgrayW = s.rd.rgray) ∧
        (s.cfg.stages ≤ ds.length → (∀ d ∈ ds, d = .current) → t.rgrayW = s.rd.rgray) ∧
        (ds.length < s.cfg.stages → s.wr.rqW[s.cfg.stages - 1 - ds.length]? = some t.rgrayW))

/-- R132: from `w_level = 0`, a run of `wclk` edges with `N + 1` pushes among them and only R.NOP on the read port
accepts the first `N` bytes and drops the last; after `S + 1` R.NOP edges the read view counts `N` bytes, and `N` pops
return them in push order. -/
def Obligations.OverflowKeepsTheFirstBytes : Prop :=
  ∀ (s : State) (es : List HostStep) (ds : List Draw) (bytes : List Byte),
    configRefusal s.cfg = none → RingInv s → s.cfg.n ≠ 0 → s.ports.wrstN = true → s.ports.rrstN = true →
    s.wLevel = 0 → (∀ e ∈ es, writeOrReadIdle e = true) → bytes = es.filterMap pushedByte →
    bytes.length = s.cfg.n + 1 → ds.length = s.cfg.stages + 1 →
    ∃ t u, play es s = .next t ∧ t.wLevel = s.cfg.n ∧ t.live = (bytes.take s.cfg.n).map some ∧
      play (ds.map fun d => .rclk 0b00#2 d) t = .next u ∧ u.rLevel = s.cfg.n ∧
      poppedBytes s.cfg.n u = (bytes.take s.cfg.n).map some

/-! ## The whole machine -/

/-- No step breaks the canonical form of RING (20_memory.md R50, R51). -/
def Obligations.StepKeepsTheRingStorageCanonical : Prop :=
  ∀ s t : State, Memory.wf s.mem = true → step s = .next t → Memory.wf t.mem = true

/-- A domain whose reset is asserted holds its reset values and the ARB resets stay together, at every step (R186,
R187). That the two ARB levels stay equal rests on the model's refusal of the release of one domain alone (log 11,
DEDUCED). -/
def Obligations.StepKeepsAssertedResetsHeld : Prop :=
  ∀ s t : State, ResetsHeld s → step s = .next t → ResetsHeld t

/-- The machine right after reset meets every invariant, at every configuration the spec accepts and at the model's
reference configuration (R185). -/
def Obligations.ResetMeetsTheInvariants : Prop :=
  (∀ c : Config, configRefusal c = none → Inv (State.resetOf c)) ∧ Inv State.reset

/-- R185: the reset values of every register, and the outputs that follow from them. -/
def Obligations.ResetValues : Prop :=
  ∀ (c : Config) (s : State), s = State.resetOf c →
    s.brc = { inClk := 0#32, inBaud := 0#32, resDl := 0#16, resDivadd := 0#4, resMul := 1#4, resUnach := false,
              resValid := false, busy := false, done := false, op := .calc, lat := 0, applySkipped := false,
              seq := 0#4, busPend := false, busTmp := 0, lock := false } ∧
    s.wr.wbin = 0 ∧ s.wr.wgray = 0 ∧ (∀ q ∈ s.wr.rqW, q = 0) ∧ (c.n ≠ 0 → s.wr.rqW.length = c.stages) ∧
    s.rd.rbin = 0 ∧ s.rd.rgray = 0 ∧ (∀ q ∈ s.rd.wqR, q = 0) ∧ (c.n ≠ 0 → s.rd.wqR.length = c.stages) ∧
    (∀ a, Memory.read s.mem a = none) ∧
    s.sampling.wChg = false ∧ s.sampling.wPrev = 0 ∧ s.sampling.rChg = false ∧ s.sampling.rPrev = 0 ∧
    s.brcBusy = false ∧ s.brcDone = false ∧ s.brcValid = false ∧ s.brcUnach = false ∧ s.brcSkipped = false ∧
    s.brcDl = 0#16 ∧ s.brcDivadd = 0#4 ∧ s.brcMul = 1#4 ∧ s.brc.busReq = false ∧ s.brc.busLock = false ∧
    s.wLevel = 0 ∧ s.rLevel = 0 ∧ s.wEmpty = true ∧ s.rEmpty = true ∧
    s.wFull = decide (c.n = 0) ∧ s.rFull = decide (c.n = 0)

/-- R6: the configuration does not change while the machine runs. -/
def Obligations.ConfigurationNeverChanges : Prop :=
  ∀ s t : State, step s = .next t → t.cfg = s.cfg

/-- Frames by domain: a BRC command changes BRC's registers alone, a write-domain command nothing of BRC or of the read
domain, a read-domain command nothing of BRC, of the write domain or of RING (R65, R133, R147, R182). -/
def Obligations.CommandsStayInTheirDomain : Prop :=
  ∀ (s t : State) (i : Instr), exec i s = .next t →
    t.cfg = s.cfg ∧ t.ports = s.ports ∧ t.script = s.script ∧ t.tick = s.tick ∧
    (i.domain = .brc →
      t.wr = s.wr ∧ t.rd = s.rd ∧ t.mem = s.mem ∧ t.sampling = s.sampling ∧ t.popped = s.popped) ∧
    (i.domain = .write → t.brc = s.brc ∧ t.rd = s.rd ∧ t.popped = s.popped) ∧
    (i.domain = .read → t.brc = s.brc ∧ t.wr = s.wr ∧ t.mem = s.mem)

/-- BRC and ARB share no state: BRC's outcome is a function of its own registers, the bus responses and the
configuration, and ARB's, with the byte an R.POP returns, of its own state, the draws and the configuration (R65,
R182). -/
def Obligations.UnitsDoNotInfluenceEachOther : Prop :=
  ∀ (s₁ s₂ : State) (i : Instr), s₁.cfg = s₂.cfg →
    (i.domain = .brc → s₁.brc = s₂.brc → s₁.ports.busAck = s₂.ports.busAck →
      s₁.ports.busRdata = s₂.ports.busRdata →
      ∃ t₁ t₂, exec i s₁ = .next t₁ ∧ exec i s₂ = .next t₂ ∧ t₁.brc = t₂.brc) ∧
    (i.domain ≠ .brc → s₁.wr = s₂.wr → s₁.rd = s₂.rd → s₁.mem = s₂.mem → s₁.sampling = s₂.sampling →
      s₁.ports.drawW = s₂.ports.drawW → s₁.ports.drawR = s₂.ports.drawR →
      (∃ t₁ t₂, exec i s₁ = .next t₁ ∧ exec i s₂ = .next t₂ ∧
        t₁.wr = t₂.wr ∧ t₁.rd = t₂.rd ∧ t₁.mem = t₂.mem ∧ t₁.sampling = t₂.sampling ∧
        (i = .rPop ∨ s₁.popped = s₂.popped → t₁.popped = t₂.popped)) ∨
      ∃ r, exec i s₁ = .fault r ∧ exec i s₂ = .fault r)
end

