-- ==== Sys2Proof/Laws/State.lean ====
section
/-!
SUPPORT. One lemma per field per update of State, true by unfolding, so that no later proof unfolds a record update.
-/
namespace Sys2Proof.Machine

/-! ## `setBrc` -/

@[simp] theorem setBrc_cfg (s : State) (b : Brc) : (s.setBrc b).cfg = s.cfg := rfl
@[simp] theorem setBrc_brc (s : State) (b : Brc) : (s.setBrc b).brc = b := rfl
@[simp] theorem setBrc_wr (s : State) (b : Brc) : (s.setBrc b).wr = s.wr := rfl
@[simp] theorem setBrc_rd (s : State) (b : Brc) : (s.setBrc b).rd = s.rd := rfl
@[simp] theorem setBrc_mem (s : State) (b : Brc) : (s.setBrc b).mem = s.mem := rfl
@[simp] theorem setBrc_sampling (s : State) (b : Brc) : (s.setBrc b).sampling = s.sampling := rfl
@[simp] theorem setBrc_popped (s : State) (b : Brc) : (s.setBrc b).popped = s.popped := rfl
@[simp] theorem setBrc_ports (s : State) (b : Brc) : (s.setBrc b).ports = s.ports := rfl
@[simp] theorem setBrc_script (s : State) (b : Brc) : (s.setBrc b).script = s.script := rfl
@[simp] theorem setBrc_tick (s : State) (b : Brc) : (s.setBrc b).tick = s.tick := rfl
@[simp] theorem setBrc_self (s : State) : s.setBrc s.brc = s := rfl

/-! ## `setWr` -/

@[simp] theorem setWr_cfg (s : State) (w : WriteDomain) : (s.setWr w).cfg = s.cfg := rfl
@[simp] theorem setWr_brc (s : State) (w : WriteDomain) : (s.setWr w).brc = s.brc := rfl
@[simp] theorem setWr_wr (s : State) (w : WriteDomain) : (s.setWr w).wr = w := rfl
@[simp] theorem setWr_rd (s : State) (w : WriteDomain) : (s.setWr w).rd = s.rd := rfl
@[simp] theorem setWr_mem (s : State) (w : WriteDomain) : (s.setWr w).mem = s.mem := rfl
@[simp] theorem setWr_sampling (s : State) (w : WriteDomain) : (s.setWr w).sampling = s.sampling := rfl
@[simp] theorem setWr_popped (s : State) (w : WriteDomain) : (s.setWr w).popped = s.popped := rfl
@[simp] theorem setWr_ports (s : State) (w : WriteDomain) : (s.setWr w).ports = s.ports := rfl
@[simp] theorem setWr_script (s : State) (w : WriteDomain) : (s.setWr w).script = s.script := rfl
@[simp] theorem setWr_tick (s : State) (w : WriteDomain) : (s.setWr w).tick = s.tick := rfl
@[simp] theorem setWr_self (s : State) : s.setWr s.wr = s := rfl

/-! ## `setRd` -/

@[simp] theorem setRd_cfg (s : State) (r : ReadDomain) : (s.setRd r).cfg = s.cfg := rfl
@[simp] theorem setRd_brc (s : State) (r : ReadDomain) : (s.setRd r).brc = s.brc := rfl
@[simp] theorem setRd_wr (s : State) (r : ReadDomain) : (s.setRd r).wr = s.wr := rfl
@[simp] theorem setRd_rd (s : State) (r : ReadDomain) : (s.setRd r).rd = r := rfl
@[simp] theorem setRd_mem (s : State) (r : ReadDomain) : (s.setRd r).mem = s.mem := rfl
@[simp] theorem setRd_sampling (s : State) (r : ReadDomain) : (s.setRd r).sampling = s.sampling := rfl
@[simp] theorem setRd_popped (s : State) (r : ReadDomain) : (s.setRd r).popped = s.popped := rfl
@[simp] theorem setRd_ports (s : State) (r : ReadDomain) : (s.setRd r).ports = s.ports := rfl
@[simp] theorem setRd_script (s : State) (r : ReadDomain) : (s.setRd r).script = s.script := rfl
@[simp] theorem setRd_tick (s : State) (r : ReadDomain) : (s.setRd r).tick = s.tick := rfl
@[simp] theorem setRd_self (s : State) : s.setRd s.rd = s := rfl

/-! ## `setMem` -/

@[simp] theorem setMem_cfg (s : State) (m : List Host.Cell) : (s.setMem m).cfg = s.cfg := rfl
@[simp] theorem setMem_brc (s : State) (m : List Host.Cell) : (s.setMem m).brc = s.brc := rfl
@[simp] theorem setMem_wr (s : State) (m : List Host.Cell) : (s.setMem m).wr = s.wr := rfl
@[simp] theorem setMem_rd (s : State) (m : List Host.Cell) : (s.setMem m).rd = s.rd := rfl
@[simp] theorem setMem_mem (s : State) (m : List Host.Cell) : (s.setMem m).mem = m := rfl
@[simp] theorem setMem_sampling (s : State) (m : List Host.Cell) : (s.setMem m).sampling = s.sampling := rfl
@[simp] theorem setMem_popped (s : State) (m : List Host.Cell) : (s.setMem m).popped = s.popped := rfl
@[simp] theorem setMem_ports (s : State) (m : List Host.Cell) : (s.setMem m).ports = s.ports := rfl
@[simp] theorem setMem_script (s : State) (m : List Host.Cell) : (s.setMem m).script = s.script := rfl
@[simp] theorem setMem_tick (s : State) (m : List Host.Cell) : (s.setMem m).tick = s.tick := rfl
@[simp] theorem setMem_self (s : State) : s.setMem s.mem = s := rfl

/-! ## `setSampling` -/

@[simp] theorem setSampling_cfg (s : State) (x : Sampling) : (s.setSampling x).cfg = s.cfg := rfl
@[simp] theorem setSampling_brc (s : State) (x : Sampling) : (s.setSampling x).brc = s.brc := rfl
@[simp] theorem setSampling_wr (s : State) (x : Sampling) : (s.setSampling x).wr = s.wr := rfl
@[simp] theorem setSampling_rd (s : State) (x : Sampling) : (s.setSampling x).rd = s.rd := rfl
@[simp] theorem setSampling_mem (s : State) (x : Sampling) : (s.setSampling x).mem = s.mem := rfl
@[simp] theorem setSampling_sampling (s : State) (x : Sampling) : (s.setSampling x).sampling = x := rfl
@[simp] theorem setSampling_popped (s : State) (x : Sampling) : (s.setSampling x).popped = s.popped := rfl
@[simp] theorem setSampling_ports (s : State) (x : Sampling) : (s.setSampling x).ports = s.ports := rfl
@[simp] theorem setSampling_script (s : State) (x : Sampling) : (s.setSampling x).script = s.script := rfl
@[simp] theorem setSampling_tick (s : State) (x : Sampling) : (s.setSampling x).tick = s.tick := rfl
@[simp] theorem setSampling_self (s : State) : s.setSampling s.sampling = s := rfl

/-! ## `setPopped` -/

@[simp] theorem setPopped_cfg (s : State) (v : Option Byte) : (s.setPopped v).cfg = s.cfg := rfl
@[simp] theorem setPopped_brc (s : State) (v : Option Byte) : (s.setPopped v).brc = s.brc := rfl
@[simp] theorem setPopped_wr (s : State) (v : Option Byte) : (s.setPopped v).wr = s.wr := rfl
@[simp] theorem setPopped_rd (s : State) (v : Option Byte) : (s.setPopped v).rd = s.rd := rfl
@[simp] theorem setPopped_mem (s : State) (v : Option Byte) : (s.setPopped v).mem = s.mem := rfl
@[simp] theorem setPopped_sampling (s : State) (v : Option Byte) : (s.setPopped v).sampling = s.sampling := rfl
@[simp] theorem setPopped_popped (s : State) (v : Option Byte) : (s.setPopped v).popped = v := rfl
@[simp] theorem setPopped_ports (s : State) (v : Option Byte) : (s.setPopped v).ports = s.ports := rfl
@[simp] theorem setPopped_script (s : State) (v : Option Byte) : (s.setPopped v).script = s.script := rfl
@[simp] theorem setPopped_tick (s : State) (v : Option Byte) : (s.setPopped v).tick = s.tick := rfl
@[simp] theorem setPopped_self (s : State) : s.setPopped s.popped = s := rfl

/-! ## `setPorts` -/

@[simp] theorem setPorts_cfg (s : State) (p : Ports) : (s.setPorts p).cfg = s.cfg := rfl
@[simp] theorem setPorts_brc (s : State) (p : Ports) : (s.setPorts p).brc = s.brc := rfl
@[simp] theorem setPorts_wr (s : State) (p : Ports) : (s.setPorts p).wr = s.wr := rfl
@[simp] theorem setPorts_rd (s : State) (p : Ports) : (s.setPorts p).rd = s.rd := rfl
@[simp] theorem setPorts_mem (s : State) (p : Ports) : (s.setPorts p).mem = s.mem := rfl
@[simp] theorem setPorts_sampling (s : State) (p : Ports) : (s.setPorts p).sampling = s.sampling := rfl
@[simp] theorem setPorts_popped (s : State) (p : Ports) : (s.setPorts p).popped = s.popped := rfl
@[simp] theorem setPorts_ports (s : State) (p : Ports) : (s.setPorts p).ports = p := rfl
@[simp] theorem setPorts_script (s : State) (p : Ports) : (s.setPorts p).script = s.script := rfl
@[simp] theorem setPorts_tick (s : State) (p : Ports) : (s.setPorts p).tick = s.tick := rfl
@[simp] theorem setPorts_self (s : State) : s.setPorts s.ports = s := rfl

/-! ## `setScript` -/

@[simp] theorem setScript_cfg (s : State) (es : List HostStep) : (s.setScript es).cfg = s.cfg := rfl
@[simp] theorem setScript_brc (s : State) (es : List HostStep) : (s.setScript es).brc = s.brc := rfl
@[simp] theorem setScript_wr (s : State) (es : List HostStep) : (s.setScript es).wr = s.wr := rfl
@[simp] theorem setScript_rd (s : State) (es : List HostStep) : (s.setScript es).rd = s.rd := rfl
@[simp] theorem setScript_mem (s : State) (es : List HostStep) : (s.setScript es).mem = s.mem := rfl
@[simp] theorem setScript_sampling (s : State) (es : List HostStep) : (s.setScript es).sampling = s.sampling := rfl
@[simp] theorem setScript_popped (s : State) (es : List HostStep) : (s.setScript es).popped = s.popped := rfl
@[simp] theorem setScript_ports (s : State) (es : List HostStep) : (s.setScript es).ports = s.ports := rfl
@[simp] theorem setScript_script (s : State) (es : List HostStep) : (s.setScript es).script = es := rfl
@[simp] theorem setScript_tick (s : State) (es : List HostStep) : (s.setScript es).tick = s.tick := rfl
@[simp] theorem setScript_self (s : State) : s.setScript s.script = s := rfl

/-! ## `setTick` -/

@[simp] theorem setTick_cfg (s : State) (n : Nat) : (s.setTick n).cfg = s.cfg := rfl
@[simp] theorem setTick_brc (s : State) (n : Nat) : (s.setTick n).brc = s.brc := rfl
@[simp] theorem setTick_wr (s : State) (n : Nat) : (s.setTick n).wr = s.wr := rfl
@[simp] theorem setTick_rd (s : State) (n : Nat) : (s.setTick n).rd = s.rd := rfl
@[simp] theorem setTick_mem (s : State) (n : Nat) : (s.setTick n).mem = s.mem := rfl
@[simp] theorem setTick_sampling (s : State) (n : Nat) : (s.setTick n).sampling = s.sampling := rfl
@[simp] theorem setTick_popped (s : State) (n : Nat) : (s.setTick n).popped = s.popped := rfl
@[simp] theorem setTick_ports (s : State) (n : Nat) : (s.setTick n).ports = s.ports := rfl
@[simp] theorem setTick_script (s : State) (n : Nat) : (s.setTick n).script = s.script := rfl
@[simp] theorem setTick_tick (s : State) (n : Nat) : (s.setTick n).tick = n := rfl
@[simp] theorem setTick_self (s : State) : s.setTick s.tick = s := rfl

/-! ## `driveBus` -/

@[simp] theorem driveBus_cfg (s : State) (ack : Bool) (rdata : Nat) : (s.driveBus ack rdata).cfg = s.cfg := rfl
@[simp] theorem driveBus_brc (s : State) (ack : Bool) (rdata : Nat) : (s.driveBus ack rdata).brc = s.brc := rfl
@[simp] theorem driveBus_wr (s : State) (ack : Bool) (rdata : Nat) : (s.driveBus ack rdata).wr = s.wr := rfl
@[simp] theorem driveBus_rd (s : State) (ack : Bool) (rdata : Nat) : (s.driveBus ack rdata).rd = s.rd := rfl
@[simp] theorem driveBus_mem (s : State) (ack : Bool) (rdata : Nat) : (s.driveBus ack rdata).mem = s.mem := rfl
@[simp] theorem driveBus_sampling (s : State) (ack : Bool) (rdata : Nat) : (s.driveBus ack rdata).sampling = s.sampling := rfl
@[simp] theorem driveBus_popped (s : State) (ack : Bool) (rdata : Nat) : (s.driveBus ack rdata).popped = s.popped := rfl
@[simp] theorem driveBus_ports (s : State) (ack : Bool) (rdata : Nat) : (s.driveBus ack rdata).ports = { s.ports with busAck := ack, busRdata := rdata } := rfl
@[simp] theorem driveBus_script (s : State) (ack : Bool) (rdata : Nat) : (s.driveBus ack rdata).script = s.script := rfl
@[simp] theorem driveBus_tick (s : State) (ack : Bool) (rdata : Nat) : (s.driveBus ack rdata).tick = s.tick := rfl

/-! ## `driveDrawW` -/

@[simp] theorem driveDrawW_cfg (s : State) (d : Draw) : (s.driveDrawW d).cfg = s.cfg := rfl
@[simp] theorem driveDrawW_brc (s : State) (d : Draw) : (s.driveDrawW d).brc = s.brc := rfl
@[simp] theorem driveDrawW_wr (s : State) (d : Draw) : (s.driveDrawW d).wr = s.wr := rfl
@[simp] theorem driveDrawW_rd (s : State) (d : Draw) : (s.driveDrawW d).rd = s.rd := rfl
@[simp] theorem driveDrawW_mem (s : State) (d : Draw) : (s.driveDrawW d).mem = s.mem := rfl
@[simp] theorem driveDrawW_sampling (s : State) (d : Draw) : (s.driveDrawW d).sampling = s.sampling := rfl
@[simp] theorem driveDrawW_popped (s : State) (d : Draw) : (s.driveDrawW d).popped = s.popped := rfl
@[simp] theorem driveDrawW_ports (s : State) (d : Draw) : (s.driveDrawW d).ports = { s.ports with drawW := d } := rfl
@[simp] theorem driveDrawW_script (s : State) (d : Draw) : (s.driveDrawW d).script = s.script := rfl
@[simp] theorem driveDrawW_tick (s : State) (d : Draw) : (s.driveDrawW d).tick = s.tick := rfl

/-! ## `driveDrawR` -/

@[simp] theorem driveDrawR_cfg (s : State) (d : Draw) : (s.driveDrawR d).cfg = s.cfg := rfl
@[simp] theorem driveDrawR_brc (s : State) (d : Draw) : (s.driveDrawR d).brc = s.brc := rfl
@[simp] theorem driveDrawR_wr (s : State) (d : Draw) : (s.driveDrawR d).wr = s.wr := rfl
@[simp] theorem driveDrawR_rd (s : State) (d : Draw) : (s.driveDrawR d).rd = s.rd := rfl
@[simp] theorem driveDrawR_mem (s : State) (d : Draw) : (s.driveDrawR d).mem = s.mem := rfl
@[simp] theorem driveDrawR_sampling (s : State) (d : Draw) : (s.driveDrawR d).sampling = s.sampling := rfl
@[simp] theorem driveDrawR_popped (s : State) (d : Draw) : (s.driveDrawR d).popped = s.popped := rfl
@[simp] theorem driveDrawR_ports (s : State) (d : Draw) : (s.driveDrawR d).ports = { s.ports with drawR := d } := rfl
@[simp] theorem driveDrawR_script (s : State) (d : Draw) : (s.driveDrawR d).script = s.script := rfl
@[simp] theorem driveDrawR_tick (s : State) (d : Draw) : (s.driveDrawR d).tick = s.tick := rfl

/-! ## `driveResets` -/

@[simp] theorem driveResets_cfg (s : State) (c w r : Bool) : (s.driveResets c w r).cfg = s.cfg := rfl
@[simp] theorem driveResets_brc (s : State) (c w r : Bool) : (s.driveResets c w r).brc = s.brc := rfl
@[simp] theorem driveResets_wr (s : State) (c w r : Bool) : (s.driveResets c w r).wr = s.wr := rfl
@[simp] theorem driveResets_rd (s : State) (c w r : Bool) : (s.driveResets c w r).rd = s.rd := rfl
@[simp] theorem driveResets_mem (s : State) (c w r : Bool) : (s.driveResets c w r).mem = s.mem := rfl
@[simp] theorem driveResets_sampling (s : State) (c w r : Bool) : (s.driveResets c w r).sampling = s.sampling := rfl
@[simp] theorem driveResets_popped (s : State) (c w r : Bool) : (s.driveResets c w r).popped = s.popped := rfl
@[simp] theorem driveResets_ports (s : State) (c w r : Bool) : (s.driveResets c w r).ports = { s.ports with crstN := c, wrstN := w, rrstN := r } := rfl
@[simp] theorem driveResets_script (s : State) (c w r : Bool) : (s.driveResets c w r).script = s.script := rfl
@[simp] theorem driveResets_tick (s : State) (c w r : Bool) : (s.driveResets c w r).tick = s.tick := rfl

/-! ## `resetBrc` -/

@[simp] theorem resetBrc_cfg (s : State) : s.resetBrc.cfg = s.cfg := rfl
@[simp] theorem resetBrc_brc (s : State) : s.resetBrc.brc = Brc.reset := rfl
@[simp] theorem resetBrc_wr (s : State) : s.resetBrc.wr = s.wr := rfl
@[simp] theorem resetBrc_rd (s : State) : s.resetBrc.rd = s.rd := rfl
@[simp] theorem resetBrc_mem (s : State) : s.resetBrc.mem = s.mem := rfl
@[simp] theorem resetBrc_sampling (s : State) : s.resetBrc.sampling = s.sampling := rfl
@[simp] theorem resetBrc_popped (s : State) : s.resetBrc.popped = s.popped := rfl
@[simp] theorem resetBrc_ports (s : State) : s.resetBrc.ports = s.ports := rfl
@[simp] theorem resetBrc_script (s : State) : s.resetBrc.script = s.script := rfl
@[simp] theorem resetBrc_tick (s : State) : s.resetBrc.tick = s.tick := rfl

/-! ## `resetArb` -/

@[simp] theorem resetArb_cfg (s : State) : s.resetArb.cfg = s.cfg := rfl
@[simp] theorem resetArb_brc (s : State) : s.resetArb.brc = s.brc := rfl
@[simp] theorem resetArb_wr (s : State) : s.resetArb.wr = WriteDomain.reset s.cfg := rfl
@[simp] theorem resetArb_rd (s : State) : s.resetArb.rd = ReadDomain.reset s.cfg := rfl
@[simp] theorem resetArb_mem (s : State) : s.resetArb.mem = [] := rfl
@[simp] theorem resetArb_sampling (s : State) : s.resetArb.sampling = Sampling.reset := rfl
@[simp] theorem resetArb_popped (s : State) : s.resetArb.popped = none := rfl
@[simp] theorem resetArb_ports (s : State) : s.resetArb.ports = s.ports := rfl
@[simp] theorem resetArb_script (s : State) : s.resetArb.script = s.script := rfl
@[simp] theorem resetArb_tick (s : State) : s.resetArb.tick = s.tick := rfl

end Sys2Proof.Machine
end

