-- ==== Sys2Proof/Laws/Brc.lean ====
section
/-!
SUPPORT. What a `cclk` edge can do to BRC's registers, said once.
-/
namespace Sys2Proof.Machine

/-- The progress of BRC is one of: nothing (`busy = 0`), a count, a completion, an issue, an acknowledgement, a wait. -/
theorem Brc.progress_cases (c : Config) (ack : Bool) (rdata : Nat) (b : Brc) :
    (b.busy = false ∧ b.progress c ack rdata = b) ∨
    (b.busy = true ∧ b.op = .calc ∧ b.lat ≠ 1 ∧ b.progress c ack rdata = { b with lat := b.lat - 1 }) ∨
    (b.busy = true ∧ b.op = .calc ∧ b.lat = 1 ∧
      b.progress c ack rdata = ({ b with lat := 0 } : Brc).completeCalc c) ∨
    (b.busy = true ∧ b.op = .apply ∧ b.busPend = false ∧ b.progress c ack rdata = b.issue) ∨
    (b.busy = true ∧ b.op = .apply ∧ b.busPend = true ∧ ack = true ∧
      b.progress c ack rdata = b.acknowledge c rdata) ∨
    (b.busy = true ∧ b.op = .apply ∧ b.busPend = true ∧ ack = false ∧ b.progress c ack rdata = b) := by
  cases hb : b.busy
  · exact .inl ⟨rfl, by simp [Brc.progress, hb]⟩
  · cases ho : b.op
    · by_cases hl : b.lat = 1
      · exact .inr (.inr (.inl ⟨rfl, rfl, hl, by simp [Brc.progress, hb, ho, Brc.calcStep, hl]⟩))
      · exact .inr (.inl ⟨rfl, rfl, hl, by simp [Brc.progress, hb, ho, Brc.calcStep, hl]⟩)
    · cases hp : b.busPend
      · exact .inr (.inr (.inr (.inl ⟨rfl, rfl, rfl,
          by simp [Brc.progress, hb, ho, Brc.transactionStep, hp]⟩)))
      · cases ack
        · exact .inr (.inr (.inr (.inr (.inr ⟨rfl, rfl, rfl, rfl,
            by simp [Brc.progress, hb, ho, Brc.transactionStep, hp]⟩))))
        · exact .inr (.inr (.inr (.inr (.inl ⟨rfl, rfl, rfl, rfl,
            by simp [Brc.progress, hb, ho, Brc.transactionStep, hp]⟩))))

@[simp] theorem Brc.progress_idle {c : Config} {ack : Bool} {rdata : Nat} {b : Brc} (h : b.busy = false) :
    b.progress c ack rdata = b := by simp [Brc.progress, h]

/-- A read row is an odd one (R112). -/
theorem isReadRow_iff (q : BitVec 4) :
    isReadRow q = true ↔ q = 1#4 ∨ q = 3#4 ∨ q = 5#4 ∨ q = 7#4 ∨ q = 9#4 := by
  revert q; decide

end Sys2Proof.Machine
end

