-- ==== Sys2Proof/Laws/Memory.lean ====
section
/-!
SUPPORT. RING as a memory: a read after a write, and the canonical form kept.
-/
namespace Sys2Proof.Machine

@[simp] theorem Memory.read_nil (i : Nat) : Memory.read [] i = none := rfl

/-- A read after a write gives the byte written at its slot and what was there before elsewhere. -/
theorem Memory.read_write (m : List Host.Cell) (i : Nat) (v : Byte) (a : Nat) :
    Memory.read (Memory.write m i v) a = if a = i then some v else Memory.read m a := by
  induction m with
  | nil => simp [Memory.write, Memory.read]
  | cons c m ih =>
    obtain ⟨b, u⟩ := c
    by_cases h1 : i < b
    · simp [Memory.write, h1, Memory.read]
    · by_cases h2 : i = b
      · subst h2
        by_cases h3 : a = i <;> simp [Memory.write, Memory.read, h3]
      · by_cases h3 : a = b
        · subst h3
          have : a ≠ i := fun h => h2 h.symm
          simp [Memory.write, Memory.read, h1, h2, this]
        · simp [Memory.write, Memory.read, h1, h2, h3, ih]

/-- A byte listed after a write is the one written or was listed before. -/
theorem Memory.mem_write {m : List Host.Cell} {i : Nat} {v : Byte} {c : Host.Cell}
    (h : c ∈ Memory.write m i v) : c = (i, v) ∨ c ∈ m := by
  induction m with
  | nil => simpa [Memory.write] using h
  | cons d m ih =>
    obtain ⟨b, u⟩ := d
    simp only [Memory.write] at h
    split at h
    · simpa using h
    · split at h
      · rcases List.mem_cons.mp h with h | h
        · exact .inl h
        · exact .inr (List.mem_cons_of_mem _ h)
      · rcases List.mem_cons.mp h with h | h
        · exact .inr (by simp [h])
        · exact (ih h).imp_right (List.mem_cons_of_mem _)

theorem Memory.risesFrom_write {m : List Host.Cell} {l i : Nat} (v : Byte) (hl : l < i)
    (h : Memory.risesFrom l m = true) : Memory.risesFrom l (Memory.write m i v) = true := by
  induction m generalizing l with
  | nil => simpa [Memory.write, Memory.risesFrom] using hl
  | cons c m ih =>
    obtain ⟨b, u⟩ := c
    simp only [Memory.risesFrom, Bool.and_eq_true, decide_eq_true_eq] at h
    simp only [Memory.write]
    split
    · simp_all [Memory.risesFrom]
    · split
      · subst i; simp_all [Memory.risesFrom]
      · have : b < i := by omega
        simp [Memory.risesFrom, h.1, ih this h.2]

/-- A write keeps the canonical form (R50). -/
theorem Memory.wf_write {m : List Host.Cell} (i : Nat) (v : Byte) (h : Memory.wf m = true) :
    Memory.wf (Memory.write m i v) = true := by
  cases m with
  | nil => simp [Memory.write, Memory.wf, Memory.risesFrom]
  | cons c m =>
    obtain ⟨b, u⟩ := c
    simp only [Memory.wf] at h
    simp only [Memory.write]
    split
    · simp_all [Memory.wf, Memory.risesFrom]
    · split
      · subst i; simpa [Memory.wf] using h
      · have : b < i := by omega
        simpa [Memory.wf] using Memory.risesFrom_write v this h

/-- RING right after reset is in the canonical form. -/
theorem reset_mem_wf : Memory.wf State.reset.mem = true := rfl

end Sys2Proof.Machine
end

