-- ==== Sys2Proof/Laws/PerInstr.lean ====
section
/-!
SUPPORT. Statements about every command as syntax, one lemma per constructor.
-/

/-- The command's word is a legal word of the command's own port, and its operands are in range (R71 to R73, R80, R84). -/
def Sys2Proof.Laws.LegalWord.Statement (i : Sys2Proof.Instr) : Prop :=
  (Sys2Proof.encode i).domain = i.domain ∧ (Sys2Proof.encode i).wellFormed = true ∧ i.wellFormed = true

namespace Sys2Proof.Laws.LegalWord

theorem brcNop : Statement .brcNop := ⟨rfl, rfl, rfl⟩

theorem brcStart (f b : Word32) : Statement (.brcStart f b) := by
  have hf := f.isLt
  have hb := b.isLt
  refine ⟨rfl, rfl, ?_⟩
  simp only [Instr.wellFormed, clockOperandsOk, Bool.and_eq_true, decide_eq_true_eq]
  exact ⟨hf, hb⟩

theorem brcApply : Statement .brcApply := ⟨rfl, rfl, rfl⟩

theorem wNop : Statement .wNop := ⟨rfl, rfl, rfl⟩

theorem wPush (d : Byte) : Statement (.wPush d) := by
  have hd := d.isLt
  refine ⟨rfl, rfl, ?_⟩
  simp only [Instr.wellFormed, byteOperandOk, decide_eq_true_eq]
  exact hd

theorem rNop : Statement .rNop := ⟨rfl, rfl, rfl⟩

theorem rPop : Statement .rPop := ⟨rfl, rfl, rfl⟩

theorem rFlush : Statement .rFlush := ⟨rfl, rfl, rfl⟩

end Sys2Proof.Laws.LegalWord
end

