-- ==== Sys2Proof/Laws/Ring.lean ====
section
/-!
SUPPORT. What the operations of the two ring domains do, field by field.
-/
namespace Sys2Proof.Machine

/-! ## Synchroniser stages (R151, R152) -/

@[simp] theorem shiftStages_nil (x : Nat) : shiftStages x [] = [] := rfl

@[simp] theorem shiftStages_length (x : Nat) (q : List Nat) : (shiftStages x q).length = q.length := by
  simp [shiftStages]

theorem shiftStages_head (x : Nat) {q : List Nat} (h : 0 < q.length) : (shiftStages x q)[0]? = some x := by
  cases q with
  | nil => simp at h
  | cons a q => simp [shiftStages]

theorem shiftStages_next (x : Nat) {q : List Nat} {j : Nat} (h : j + 1 < q.length) :
    (shiftStages x q)[j + 1]? = q[j]? := by
  simp [shiftStages, h]

/-- A new stage list is the sample with the old list but its last stage. -/
theorem shiftStages_eq (x a : Nat) (q : List Nat) : shiftStages x (a :: q) = x :: (a :: q).dropLast := by
  simp [shiftStages, List.dropLast_eq_take]

/-- Every stage after a shift is the sample or a stage from before. -/
theorem mem_shiftStages {x y : Nat} {q : List Nat} (h : y ∈ shiftStages x q) : y = x ∨ y ∈ q := by
  have := List.mem_of_mem_take h
  simpa using this

theorem shiftStages_map (f : Nat → Nat) (x : Nat) (q : List Nat) :
    shiftStages (f x) (q.map f) = (shiftStages x q).map f := by
  rw [shiftStages, shiftStages, List.length_map, ← List.map_cons, ← List.map_take]

theorem sampled_cases (chg : Bool) (c p : Nat) (d : Draw) :
    sampled chg c p d = c ∨ chg = true ∧ sampled chg c p d = p := by
  cases chg <;> cases d <;> simp [sampled]

@[simp] theorem sampled_unchanged (c p : Nat) (d : Draw) : sampled false c p d = c := by cases d <;> rfl

@[simp] theorem sampled_current (chg : Bool) (c p : Nat) : sampled chg c p .current = c := by cases chg <;> rfl

/-! ## `syncW`, `syncR` -/

@[simp] theorem syncW_cfg (s : State) : (s.syncW).cfg = s.cfg := rfl
@[simp] theorem syncW_brc (s : State) : (s.syncW).brc = s.brc := rfl
@[simp] theorem syncW_wr (s : State) : (s.syncW).wr = { s.wr with rqW := shiftStages s.sampleR s.wr.rqW } := rfl
@[simp] theorem syncW_rd (s : State) : (s.syncW).rd = s.rd := rfl
@[simp] theorem syncW_mem (s : State) : (s.syncW).mem = s.mem := rfl
@[simp] theorem syncW_sampling (s : State) : (s.syncW).sampling = { s.sampling with rChg := false } := rfl
@[simp] theorem syncW_popped (s : State) : (s.syncW).popped = s.popped := rfl
@[simp] theorem syncW_ports (s : State) : (s.syncW).ports = s.ports := rfl
@[simp] theorem syncW_script (s : State) : (s.syncW).script = s.script := rfl
@[simp] theorem syncW_tick (s : State) : (s.syncW).tick = s.tick := rfl

@[simp] theorem syncR_cfg (s : State) : (s.syncR).cfg = s.cfg := rfl
@[simp] theorem syncR_brc (s : State) : (s.syncR).brc = s.brc := rfl
@[simp] theorem syncR_wr (s : State) : (s.syncR).wr = s.wr := rfl
@[simp] theorem syncR_rd (s : State) : (s.syncR).rd = { s.rd with wqR := shiftStages s.sampleW s.rd.wqR } := rfl
@[simp] theorem syncR_mem (s : State) : (s.syncR).mem = s.mem := rfl
@[simp] theorem syncR_sampling (s : State) : (s.syncR).sampling = { s.sampling with wChg := false } := rfl
@[simp] theorem syncR_popped (s : State) : (s.syncR).popped = s.popped := rfl
@[simp] theorem syncR_ports (s : State) : (s.syncR).ports = s.ports := rfl
@[simp] theorem syncR_script (s : State) : (s.syncR).script = s.script := rfl
@[simp] theorem syncR_tick (s : State) : (s.syncR).tick = s.tick := rfl

/-! ## Pointer moves -/

@[simp] theorem moveWrite_cfg (s : State) (nxt : Nat) : (s.moveWrite nxt).cfg = s.cfg := rfl
@[simp] theorem moveWrite_brc (s : State) (nxt : Nat) : (s.moveWrite nxt).brc = s.brc := rfl
@[simp] theorem moveWrite_wr (s : State) (nxt : Nat) : (s.moveWrite nxt).wr = { s.wr with wbin := nxt, wgray := gray nxt } := rfl
@[simp] theorem moveWrite_rd (s : State) (nxt : Nat) : (s.moveWrite nxt).rd = s.rd := rfl
@[simp] theorem moveWrite_mem (s : State) (nxt : Nat) : (s.moveWrite nxt).mem = s.mem := rfl
@[simp] theorem moveWrite_sampling (s : State) (nxt : Nat) : (s.moveWrite nxt).sampling = 
      if gray nxt = s.wr.wgray then s.sampling else { s.sampling with wChg := true, wPrev := s.wr.wgray } := rfl
@[simp] theorem moveWrite_popped (s : State) (nxt : Nat) : (s.moveWrite nxt).popped = s.popped := rfl
@[simp] theorem moveWrite_ports (s : State) (nxt : Nat) : (s.moveWrite nxt).ports = s.ports := rfl
@[simp] theorem moveWrite_script (s : State) (nxt : Nat) : (s.moveWrite nxt).script = s.script := rfl
@[simp] theorem moveWrite_tick (s : State) (nxt : Nat) : (s.moveWrite nxt).tick = s.tick := rfl

@[simp] theorem moveRead_cfg (s : State) (b g : Nat) : (s.moveRead b g).cfg = s.cfg := rfl
@[simp] theorem moveRead_brc (s : State) (b g : Nat) : (s.moveRead b g).brc = s.brc := rfl
@[simp] theorem moveRead_wr (s : State) (b g : Nat) : (s.moveRead b g).wr = s.wr := rfl
@[simp] theorem moveRead_rd (s : State) (b g : Nat) : (s.moveRead b g).rd = { s.rd with rbin := b, rgray := g } := rfl
@[simp] theorem moveRead_mem (s : State) (b g : Nat) : (s.moveRead b g).mem = s.mem := rfl
@[simp] theorem moveRead_sampling (s : State) (b g : Nat) : (s.moveRead b g).sampling = 
      if g = s.rd.rgray then s.sampling else { s.sampling with rChg := true, rPrev := s.rd.rgray } := rfl
@[simp] theorem moveRead_popped (s : State) (b g : Nat) : (s.moveRead b g).popped = s.popped := rfl
@[simp] theorem moveRead_ports (s : State) (b g : Nat) : (s.moveRead b g).ports = s.ports := rfl
@[simp] theorem moveRead_script (s : State) (b g : Nat) : (s.moveRead b g).script = s.script := rfl
@[simp] theorem moveRead_tick (s : State) (b g : Nat) : (s.moveRead b g).tick = s.tick := rfl

/-! ## Commands -/

@[simp] theorem acceptPush_cfg (s : State) (d : Byte) : (s.acceptPush d).cfg = s.cfg := rfl
@[simp] theorem acceptPush_brc (s : State) (d : Byte) : (s.acceptPush d).brc = s.brc := rfl
@[simp] theorem acceptPush_wr (s : State) (d : Byte) : (s.acceptPush d).wr = { s.wr with wbin := nextPointer s.cfg s.wr.wbin, wgray := gray (nextPointer s.cfg s.wr.wbin) } := rfl
@[simp] theorem acceptPush_rd (s : State) (d : Byte) : (s.acceptPush d).rd = s.rd := rfl
@[simp] theorem acceptPush_mem (s : State) (d : Byte) : (s.acceptPush d).mem = Memory.write s.mem s.writeSlot d := rfl
@[simp] theorem acceptPush_sampling (s : State) (d : Byte) : (s.acceptPush d).sampling = 
      if gray (nextPointer s.cfg s.wr.wbin) = s.wr.wgray then s.sampling else { s.sampling with wChg := true, wPrev := s.wr.wgray } := rfl
@[simp] theorem acceptPush_popped (s : State) (d : Byte) : (s.acceptPush d).popped = s.popped := rfl
@[simp] theorem acceptPush_ports (s : State) (d : Byte) : (s.acceptPush d).ports = s.ports := rfl
@[simp] theorem acceptPush_script (s : State) (d : Byte) : (s.acceptPush d).script = s.script := rfl
@[simp] theorem acceptPush_tick (s : State) (d : Byte) : (s.acceptPush d).tick = s.tick := rfl

@[simp] theorem popOne_cfg (s : State) : (s.popOne).cfg = s.cfg := rfl
@[simp] theorem popOne_brc (s : State) : (s.popOne).brc = s.brc := rfl
@[simp] theorem popOne_wr (s : State) : (s.popOne).wr = s.wr := rfl
@[simp] theorem popOne_rd (s : State) : (s.popOne).rd = { s.rd with rbin := nextPointer s.cfg s.rd.rbin, rgray := gray (nextPointer s.cfg s.rd.rbin) } := rfl
@[simp] theorem popOne_mem (s : State) : (s.popOne).mem = s.mem := rfl
@[simp] theorem popOne_sampling (s : State) : (s.popOne).sampling = 
      if gray (nextPointer s.cfg s.rd.rbin) = s.rd.rgray then s.sampling else { s.sampling with rChg := true, rPrev := s.rd.rgray } := rfl
@[simp] theorem popOne_popped (s : State) : (s.popOne).popped = s.rData := rfl
@[simp] theorem popOne_ports (s : State) : (s.popOne).ports = s.ports := rfl
@[simp] theorem popOne_script (s : State) : (s.popOne).script = s.script := rfl
@[simp] theorem popOne_tick (s : State) : (s.popOne).tick = s.tick := rfl

theorem flushView_zero {s : State} (h : s.cfg.n = 0) : s.flushView = s := by simp [State.flushView, h]

theorem flushView_ring {s : State} (h : s.cfg.n ≠ 0) :
    s.flushView = s.moveRead (bin s.cfg.pw s.wgrayR) s.wgrayR := by simp [State.flushView, h]

/-- The push's effect on the storage: its slot holds the byte and no other slot changes. -/
theorem acceptPush_read (s : State) (d : Byte) (a : Nat) :
    Memory.read (s.acceptPush d).mem a = if a = s.writeSlot then some d else Memory.read s.mem a := by
  simp [Memory.read_write]

/-! ## Views -/

theorem wFull_of_zero {s : State} (h : s.cfg.n = 0) : s.wFull = true := by simp [State.wFull, State.wLevel, h]

theorem rEmpty_of_zero {s : State} (h : s.cfg.n = 0) : s.rEmpty = true := by simp [State.rEmpty, State.rLevel, h]

/-- A modular difference of counts that are within the modulus of each other is their true difference (R158). -/
theorem subMod_counts {w a b : Nat} (hle : b ≤ a) (hlt : a - b < 2 ^ w) :
    subMod w (a % 2 ^ w) (b % 2 ^ w) = a - b := by
  have hp : 0 < 2 ^ w := Nat.two_pow_pos w
  have hb : b % 2 ^ w < 2 ^ w := Nat.mod_lt _ hp
  have key : (a % 2 ^ w + (2 ^ w - b % 2 ^ w)) ≡ (a - b) [MOD 2 ^ w] := by
    have h1 : (a % 2 ^ w + (2 ^ w - b % 2 ^ w)) + b % 2 ^ w = a % 2 ^ w + 2 ^ w := by omega
    have h2 : (a % 2 ^ w + (2 ^ w - b % 2 ^ w)) + b ≡ (a - b) + b [MOD 2 ^ w] := by
      have h3 : (a % 2 ^ w + (2 ^ w - b % 2 ^ w)) + b ≡ (a % 2 ^ w + (2 ^ w - b % 2 ^ w)) + b % 2 ^ w [MOD 2 ^ w] :=
        Nat.ModEq.add_left _ (Nat.mod_modEq b _).symm
      refine h3.trans ?_
      rw [h1, Nat.sub_add_cancel hle]
      simp [Nat.ModEq]
    exact Nat.ModEq.add_right_cancel' b h2
  have := key
  unfold Nat.ModEq at this
  simpa [subMod, Nat.mod_eq_of_lt hlt] using this

end Sys2Proof.Machine
end

