-- ==== Sys2Proof/Laws/Script.lean ====
section
/-!
SUPPORT. What running scripts comes to on the machine, said once.
-/
namespace Sys2Proof.Machine

/-- A repeating line drives its command, is over, or reads out of its domain. -/
theorem repeatLine_cases (port own : Domain) (ended : Bool) (i : Instr) (line : ScriptLine) (rest : List ScriptLine)
    (next : PortDrive) :
    (port = own ∧ ended = true ∧ repeatLine port own ended i line rest next = next) ∨
    (port = own ∧ ended = false ∧ repeatLine port own ended i line rest next = .drive i (line :: rest)) ∨
    (port ≠ own ∧ repeatLine port own ended i line rest next = .readsOutOf own) := by
  by_cases h : port = own <;> cases ended <;> simp [repeatLine, h]

/-- Lines that stand on their own port drive that port's commands and read no other domain's output (R84, R85, R201). -/
theorem nextCommand_own_port {s : State} {d : Domain} {lines : List ScriptLine} (hl : ∀ l ∈ lines, l.port = d) :
    nextCommand d s lines = .consumed ∨
    ∃ i rest, nextCommand d s lines = .drive i rest ∧ i.domain = d ∧ ∀ l ∈ rest, l.port = d := by
  induction lines with
  | nil => exact .inl rfl
  | cons l ls ih =>
    have hls : ∀ l ∈ ls, l.port = d := fun l' h' => hl l' (by simp [h'])
    have hd : l.port = d := hl l (by simp)
    cases l with
    | command j => exact .inr ⟨j, ls, rfl, hd, hls⟩
    | waitDone =>
      obtain ⟨-, -, h⟩ | ⟨-, -, h⟩ | ⟨hn, -⟩ :=
        repeatLine_cases d .brc s.brcDone .brcNop .waitDone ls (nextCommand d s ls)
      · simpa only [nextCommand, h] using ih hls
      · exact .inr ⟨_, _, h, hd, hl⟩
      · exact absurd hd.symm hn
    | drain =>
      obtain ⟨-, -, h⟩ | ⟨-, -, h⟩ | ⟨hn, -⟩ :=
        repeatLine_cases d .read s.rEmpty .rPop .drain ls (nextCommand d s ls)
      · simpa only [nextCommand, h] using ih hls
      · exact .inr ⟨_, _, h, hd, hl⟩
      · exact absurd hd.symm hn

/-- A WAITDONE on another port than BRC's, and a DRAIN on another than the reader's, read out of their domain, whatever
the output holds (R163, R201). -/
theorem nextCommand_foreign {s : State} {d : Domain} (rest : List ScriptLine) :
    (d ≠ .brc → nextCommand d s (.waitDone :: rest) = .readsOutOf .brc) ∧
    (d ≠ .read → nextCommand d s (.drain :: rest) = .readsOutOf .read) := by
  constructor <;> intro h <;> simp [nextCommand, repeatLine, h]

/-- A run of scripts is a run of HOST steps, one for each turn: what is proved of every run holds of it. -/
theorem runScripts_play {ts : List Turn} {p q : Scripts} {s t : State} (h : runScripts ts p s = .next (q, t)) :
    ∃ es, es.length = ts.length ∧ play es s = .next t := by
  induction ts generalizing p s with
  | nil => cases h; exact ⟨[], rfl, rfl⟩
  | cons t' ts ih =>
    simp only [runScripts] at h
    split at h
    · next u hu =>
      obtain ⟨es, hl, he⟩ := ih h
      exact ⟨p.hostStep s t' :: es, by simp [hl], by simp [play, hu, he]⟩
    · cases h
    · cases h

end Sys2Proof.Machine
end

