-- ==== Sys2Proof/Laws/Step.lean ====
section
/-!
SUPPORT. What one step of the machine can be, said once.
-/
namespace Sys2Proof.Machine

/-- Every command but a pop of an empty view completes, with the state its meaning gives. -/
theorem exec_next {i : Instr} {s t : State} (h : exec i s = .next t) :
    (i = .brcNop ∧ t = s.setBrc s.brcProgress) ∨
    (∃ f b, i = .brcStart f b ∧ t = s.setBrc (if s.brc.busy then s.brcProgress else s.brc.acceptStart s.cfg f b)) ∨
    (i = .brcApply ∧ t = s.setBrc (if s.brc.busy then s.brcProgress
      else if s.brc.canApply then s.brc.acceptApply else s.brc.skipApply)) ∨
    (i = .wNop ∧ t = s.syncW) ∨
    (∃ d, i = .wPush d ∧ t = (if s.wFull then s else s.acceptPush d).syncW) ∨
    (i = .rNop ∧ t = s.syncR) ∨
    (i = .rPop ∧ s.rEmpty = false ∧ t = s.popOne.syncR) ∨
    (i = .rFlush ∧ t = s.flushView.syncR) := by
  cases i with
  | brcNop => cases h; simp
  | brcStart f b => cases h; simp
  | brcApply => cases h; simp
  | wNop => cases h; simp
  | wPush d => cases h; simp
  | rNop => cases h; simp
  | rPop =>
    cases he : s.rEmpty with
    | true => simp [exec, execRPop, he] at h
    | false =>
      simp only [exec, execRPop, he] at h
      cases h; simp
  | rFlush => cases h; simp

/-- With the HOST's bus duty kept, the edge's plan stands (R199). -/
@[simp] theorem refuseStrayAck_kept {ack : Bool} {s : State} (p : Plan) (h : ack = true → s.brc.busPend = true) :
    refuseStrayAck ack s p = p := by
  have hk : (ack && !s.brc.busReq) = false := by cases ack <;> simp_all [Brc.busReq]
  unfold refuseStrayAck
  split <;> simp_all

/-- With the duty broken, the edge faults as planned or is refused: it has no next state (R197, R199). -/
theorem refuseStrayAck_broken {s : State} (p : Plan) (h : s.brc.busPend = false) :
    refuseStrayAck true s p = .answer (.refused .ackWithoutRequest) ∨
    ∃ r, p = .answer (.fault r) ∧ refuseStrayAck true s p = p := by
  unfold refuseStrayAck
  split
  · exact .inr ⟨_, rfl, rfl⟩
  all_goals simp [Brc.busReq, h]

/-- A step that answers a next state ran a command, took an asserted reset's values, or drove the resets; and the
configuration was accepted and the bus duty of R199 kept. -/
theorem step_next {s t : State} (h : step s = .next t) :
    configRefusal s.cfg = none ∧
    ((∃ op f b ack rdata i, s.takeHostStep.1 = .cclk op f b ack rdata ∧ s.takeHostStep.2.ports.crstN = true ∧
        (ack = true → s.takeHostStep.2.brc.busPend = true) ∧
        decode (.brccmd op f b) = .ok i ∧ exec i (s.takeHostStep.2.driveBus ack rdata) = .next t) ∨
     (∃ op f b ack rdata, s.takeHostStep.1 = .cclk op f b ack rdata ∧ s.takeHostStep.2.ports.crstN = false ∧
        (ack = true → s.takeHostStep.2.brc.busPend = true) ∧
        t = (s.takeHostStep.2.driveBus ack rdata).resetBrc) ∨
     (∃ w d i, s.takeHostStep.1 = .wclk w d ∧ s.takeHostStep.2.ports.wrstN = true ∧
        decode (.wcmd w) = .ok i ∧ exec i (s.takeHostStep.2.driveDrawR d) = .next t) ∨
     (∃ w d, s.takeHostStep.1 = .wclk w d ∧ s.takeHostStep.2.ports.wrstN = false ∧
        t = (s.takeHostStep.2.driveDrawR d).resetArb) ∨
     (∃ op d i, s.takeHostStep.1 = .rclk op d ∧ s.takeHostStep.2.ports.rrstN = true ∧
        decode (.rcmd op) = .ok i ∧ exec i (s.takeHostStep.2.driveDrawW d) = .next t) ∨
     (∃ op d, s.takeHostStep.1 = .rclk op d ∧ s.takeHostStep.2.ports.rrstN = false ∧
        t = (s.takeHostStep.2.driveDrawW d).resetArb) ∨
     (∃ c w r, s.takeHostStep.1 = .resets c w r ∧ s.takeHostStep.2.applyResets c w r = .next t)) := by
  unfold step plan at h
  cases hc : configRefusal s.cfg with
  | some r => simp [hc] at h
  | none =>
    refine ⟨rfl, ?_⟩
    simp only [hc] at h
    generalize s.takeHostStep.2 = u at *
    cases he : s.takeHostStep.1 with
    | cclk op f b ack rdata =>
      simp only [he, planStep] at h
      have hk : ack = true → u.brc.busPend = true := by
        rintro rfl
        cases hp : u.brc.busPend with
        | true => rfl
        | false =>
          obtain hx | ⟨r, hf, hx⟩ := refuseStrayAck_broken _ hp
          · rw [hx] at h; cases h
          · rw [hx, hf] at h; cases h
      rw [refuseStrayAck_kept _ hk] at h
      cases hr : u.ports.crstN
      · exact .inr (.inl ⟨op, f, b, ack, rdata, rfl, rfl, hk, by simpa [hr] using h.symm⟩)
      · simp only [driveBus_ports, hr, if_true, planWord] at h
        cases hd : decode (.brccmd op f b) with
        | ok i => simp only [hd] at h; exact .inl ⟨op, f, b, ack, rdata, i, rfl, rfl, hk, hd, h⟩
        | error e => cases e; simp [hd] at h
    | wclk w d =>
      simp only [he, planStep] at h
      cases hr : u.ports.wrstN
      · exact .inr (.inr (.inr (.inl ⟨w, d, rfl, rfl, by simpa [hr] using h.symm⟩)))
      · simp only [driveDrawR_ports, hr, if_true, planWord] at h
        cases hd : decode (.wcmd w) with
        | ok i => simp only [hd] at h; exact .inr (.inr (.inl ⟨w, d, i, rfl, rfl, hd, h⟩))
        | error e => cases e; simp [hd] at h
    | rclk op d =>
      simp only [he, planStep] at h
      cases hr : u.ports.rrstN
      · exact .inr (.inr (.inr (.inr (.inr (.inl ⟨op, d, rfl, rfl, by simpa [hr] using h.symm⟩)))))
      · simp only [driveDrawW_ports, hr, if_true, planWord] at h
        cases hd : decode (.rcmd op) with
        | ok i => simp only [hd] at h; exact .inr (.inr (.inr (.inr (.inl ⟨op, d, i, rfl, rfl, hd, h⟩))))
        | error e => cases e; simp [hd] at h
    | resets c w r =>
      simp only [he, planStep] at h
      exact .inr (.inr (.inr (.inr (.inr (.inr ⟨c, w, r, rfl, h⟩)))))
    | portOutOfDomain p => simp [he, planStep] at h
    | readOutOfDomain p => simp [he, planStep] at h

/-- Taking a HOST step changes the script and the counter and nothing else. -/
theorem takeHostStep_frame (s : State) :
    s.takeHostStep.2.cfg = s.cfg ∧ s.takeHostStep.2.brc = s.brc ∧ s.takeHostStep.2.wr = s.wr ∧
    s.takeHostStep.2.rd = s.rd ∧ s.takeHostStep.2.mem = s.mem ∧ s.takeHostStep.2.sampling = s.sampling ∧
    s.takeHostStep.2.popped = s.popped ∧ s.takeHostStep.2.ports = s.ports := by
  unfold State.takeHostStep
  split <;> simp

/-- Driving the resets answers a next state only with both ARB levels equal, and then it is this one (R187, R188). -/
theorem applyResets_next {s t : State} {c w r : Bool} (h : s.applyResets c w r = .next t) :
    w = r ∧ t = (if w then (if c then s.driveResets c w r else (s.driveResets c w r).resetBrc)
      else (if c then s.driveResets c w r else (s.driveResets c w r).resetBrc).resetArb) := by
  unfold State.applyResets at h
  split at h
  · next hw => cases h; exact ⟨hw, rfl⟩
  · cases h

end Sys2Proof.Machine
end

