-- ==== Sys2Proof/Tests/Slice0.lean ====
section
/-!
SUPPORT. The model's own tests: words written out from the spec's encodings, ill-formed terms refused, at most two
one-step tests per command with results from spec/95_test_vectors.md, and a witness of the hypotheses of each statement.
-/
namespace Sys2Proof.Tests
open Sys2Proof Sys2Proof.Machine

/-! ## Helpers -/

/-- `N = 4`, the vectors' configuration (95_test_vectors.md section 2). -/
def cfg4 : Config := { Config.reference with n := 4 }

/-- The machine of the vectors right after reset. -/
def reset4 : State := State.resetOf cfg4

/-- The next state, if there is one. -/
def after (o : Host.Outcome State Fault Refusal) : Option State :=
  match o with
  | .next t => some t
  | .fault _ | .refused _ => none

/-- The fault, if there is one. -/
def faultOf (o : Host.Outcome State Fault Refusal) : Option Fault :=
  match o with
  | .fault r => some r
  | .next _ | .refused _ => none

/-- The refusal, if there is one. -/
def refusalOf (o : Host.Outcome State Fault Refusal) : Option Refusal :=
  match o with
  | .refused r => some r
  | .next _ | .fault _ => none

/-- The outcome of the machine at its next HOST step. -/
def stepWith (e : HostStep) (s : State) : Host.Outcome State Fault Refusal := step (s.setScript [e])

/-- BRC with a START accepted at `BRC_LATENCY = 1` (vector B2). -/
def started4 : State :=
  reset4.setBrc { Brc.reset with inClk := 1536000#32, inBaud := 9600#32, busy := true, lat := 1 }

/-- BRC with a completed result `(6, 1, 12)` (program P1 after c2). -/
def result4 : State :=
  reset4.setBrc { Brc.reset with resDl := 6#16, resDivadd := 1#4, resMul := 12#4, resValid := true, done := true }

/-- BRC waiting for the acknowledgement of row 1. -/
def waiting4 : State :=
  reset4.setBrc { result4.brc with busy := true, done := false, op := .apply, seq := 1#4, busPend := true, lock := true }

/-- Two bytes pushed and seen by the reader, one of them popped, the pop not yet seen by the writer. -/
def ring4 : State :=
  ((((reset4.setWr ⟨2, 0b011, [0, 0]⟩).setRd ⟨1, 0b001, [0b011, 0b011]⟩).setMem [(0, 0x11#8), (1, 0x22#8)]).setSampling
    ⟨false, 0, true, 0⟩).setPopped (some 0x11#8)

/-- Four bytes pushed and seen by both sides, the reader idle. -/
def full4 : State :=
  ((reset4.setWr ⟨4, 0b110, [0, 0]⟩).setRd ⟨0, 0, [0b110, 0b110]⟩).setMem
    [(0, 0x01#8), (1, 0x02#8), (2, 0x03#8), (3, 0x04#8)]

/-- A UART whose registers all hold 0. -/
def uart0 : Uart 32 := ⟨0, 0, 0, 0, 0, 0, 0, 0, 0, 0⟩

/-! ## Words written out from the spec's encodings (R71 to R73, R84) -/

/-- R71: `brc_cmd = 0b00`. -/
theorem test_decode_brc_nop : decode (.brccmd 0b00#2 5#32 5#32) = .ok .brcNop := rfl
/-- R84: `START 1536000, 9600` is BRCCMD `01` with those operand ports. -/
theorem test_decode_brc_start :
    decode (.brccmd 0b01#2 1536000#32 9600#32) = .ok (.brcStart 1536000#32 9600#32) := rfl
/-- R71: `brc_cmd = 0b10`. -/
theorem test_decode_brc_apply : decode (.brccmd 0b10#2 5#32 5#32) = .ok .brcApply := rfl
/-- Vector W2: WCMD `0_1111_1111` is W.NOP. -/
theorem test_decode_w_nop : decode (.wcmd 0b0_1111_1111#9) = .ok .wNop := rfl
/-- R84: `PUSH 0x41` is WCMD `1_0100_0001`. -/
theorem test_decode_w_push : decode (.wcmd 0b1_0100_0001#9) = .ok (.wPush 0x41#8) := rfl
/-- R73: `r_cmd = 0b00`. -/
theorem test_decode_r_nop : decode (.rcmd 0b00#2) = .ok .rNop := rfl
/-- R84: `POP` is RCMD `01`. -/
theorem test_decode_r_pop : decode (.rcmd 0b01#2) = .ok .rPop := rfl
/-- Vector R2: `FLUSH` is RCMD `10`. -/
theorem test_decode_r_flush : decode (.rcmd 0b10#2) = .ok .rFlush := rfl

/-! ## Ill-formed terms, each refused by its check -/

theorem test_reserved_brccmd : CmdWord.wellFormed (.brccmd 0b11#2 0 0) = false := rfl
theorem test_reserved_rcmd : CmdWord.wellFormed (.rcmd 0b11#2) = false := rfl
theorem test_decode_reserved : decode (.rcmd 0b11#2) = .error (.reserved .read 0b11) := rfl
theorem test_clock_operand_too_wide : clockOperandsOk (2 ^ 32) 9600 = false := by decide
theorem test_baud_operand_too_wide : clockOperandsOk 1536000 (2 ^ 32) = false := by decide
theorem test_byte_operand_too_wide : byteOperandOk 256 = false := by decide
/-- R7: `N = 3` is no power of two. -/
theorem test_capacity_three : configRefusal { cfg4 with n := 3 } = some (.badCapacity 3) := by decide
/-- R55: `UART_BASE + OFF_LCR = 0x4000C00D` is not a multiple of 4. -/
theorem test_misaligned_lcr : configRefusal { cfg4 with offLcr := 0x0D } = some (.misalignedRegister 0x0D) := by decide
theorem test_one_stage : configRefusal { cfg4 with stages := 1 } = some (.parameterOutOfRange "SYNC_STAGES") := by decide
theorem test_zero_latency :
    configRefusal { cfg4 with brcLatency := 0 } = some (.parameterOutOfRange "BRC_LATENCY") := by decide
theorem test_narrow_register : configRefusal { cfg4 with regW := 7 } = some (.parameterOutOfRange "REG_W") := by decide
theorem test_narrow_address : configRefusal { cfg4 with aw := 7 } = some (.parameterOutOfRange "AW") := by decide
theorem test_base_too_wide :
    configRefusal { cfg4 with uartBase := 2 ^ 32 } = some (.parameterOutOfRange "UART_BASE") := by decide
theorem test_equal_offsets : configRefusal { cfg4 with offDlm := 0 } = some (.parameterOutOfRange "OFF") := by decide
/-- R5: any distinct offsets, also two that are one address modulo `2^AW`. -/
theorem test_offsets_equal_modulo_address_accepted :
    configRefusal { cfg4 with aw := 8, uartBase := 0, offDlm := 0x100 } = none := by decide
theorem test_reference_config_accepted : configRefusal Config.reference = none := by decide
theorem test_cfg4_accepted : configRefusal cfg4 = none := by decide
/-- Vector X3: `wrst_n = 0` with `rrst_n = 1`. -/
theorem test_partial_arb_reset :
    refusalOf (stepWith (.resets true false true) reset4) = some .partialArbReset := by decide
theorem test_port_out_of_domain :
    refusalOf (stepWith (.portOutOfDomain .write) reset4) = some (.portOutOfDomain .write) := by decide

/-- R199: an acknowledgement of no request; the same edge with a request pending completes it. -/
theorem test_ack_without_request :
    refusalOf (stepWith (.cclk 0b00#2 0 0 true 3) reset4) = some .ackWithoutRequest ∧
    (after (stepWith (.cclk 0b00#2 0 0 true 3) waiting4)).map (·.brc.seq) = some 2#4 := by decide
/-- R167: a reserved word faults whatever else the edge samples. -/
theorem test_reserved_word_with_ack :
    faultOf (stepWith (.cclk 0b11#2 0 0 true 3) reset4) = some (.reservedCommand .brc 0b11) := by decide

/-! ## Script lines (R84, R85) and the end of a run (R207) -/

/-- WAITDONE drives NOPs while BRC works and is over, with no edge, when `brc_done = 1`. -/
theorem test_wait_done :
    nextCommand .brc started4 [.waitDone, .command .brcApply] = .drive .brcNop [.waitDone, .command .brcApply] ∧
    nextCommand .brc result4 [.waitDone, .command .brcApply] = .drive .brcApply [] := by decide
/-- DRAIN drives POPs while the read view holds bytes. -/
theorem test_drain :
    nextCommand .read ring4 [.drain] = .drive .rPop [.drain] ∧ nextCommand .read reset4 [.drain] = .consumed := by decide
/-- Program P2, step w1, in a listing of two ports; the read script is not consumed then. -/
theorem test_script_turn :
    (match runScripts [.write .current] (Scripts.ofListing [.command (.wPush 0x11#8), .command .rNop]) reset4 with
      | .next (p, t) => some (p.write, p.consumed t, t.wr.wbin, t.mem)
      | .fault _ | .refused _ => none) = some ([], false, 1, [(0, 0x11#8)]) := by decide
/-- A turn on another clock cannot drive a port's word (R201). -/
theorem test_script_word_of_another_port :
    (Turn.write .current).edge (encode .rPop) = .portOutOfDomain .read := rfl
/-- A WAITDONE on the write port reads `brc_done` out of its domain: refused, though `brc_done = 1` (U15). -/
theorem test_script_read_out_of_domain :
    (match runScripts [.write .current] ⟨[], [.waitDone], []⟩ result4 with
      | .refused r => some r
      | .next _ | .fault _ => none) = some (.readOutOfDomain .brc) := by decide
/-- R207 after program P2's w1 alone: `r_level` is 0 at the end and 1 once both SYNCs are through. -/
theorem test_observe :
    ((after (exec (.wPush 0x11#8) reset4)).bind fun t =>
      t.observe [.read .current, .read .current, .read .current, .write .current, .write .current, .write .current]).map
      (fun o => (o.write.wbin, o.outputs.rEmpty, o.outputs.rLevel, o.outputs.wLevel)) = some (1, true, 1, 1) := by
  decide +kernel

/-! ## Words placed as the opcode table numbers them -/

theorem test_table_start : decodeTableWord 8 0b01 = some (.brcStart 0#32 0#32) := rfl
theorem test_table_push : decodeTableWord 16 0x1FF = some (.wPush 0xFF#8) := rfl
theorem test_table_reserved : decodeTableWord 8 0b11 = none := rfl
theorem test_fetch_push :
    (after (step (State.reset.withFetchWord 16 0x111))).map (fun t => (t.wr.wbin, t.mem)) =
      some (1, [(0, 0x11#8)]) := by decide
theorem test_fetch_apply :
    (after (step (State.reset.withFetchWord 8 0b10))).map (fun t => (t.brc.applySkipped, t.brc.done, t.brc.busy)) =
      some (true, true, false) := by decide

/-! ## One step of each command -/

/-- Vector B3: the completion edge. -/
theorem test_brc_nop_completes :
    (after (exec .brcNop started4)).map (fun t => (t.brc.resDl, t.brc.resDivadd, t.brc.resMul)) =
      some (10#16, 0#4, 1#4) := by decide +kernel
/-- Vector B2. -/
theorem test_brc_start :
    (after (exec (.brcStart 1536000#32 9600#32) reset4)).map
      (fun t => (t.brc.busy, t.brc.done, t.brc.inClk, t.brc.inBaud, t.brc.lat)) =
      some (true, false, 1536000#32, 9600#32, 1) := by decide
/-- Vector B5: a START while busy is ignored, at the completing edge too (R174). -/
theorem test_brc_start_while_busy :
    (after (exec (.brcStart 7#32 7#32) started4)).map (fun t => (t.brc.inClk, t.brc.busy)) =
      some (1536000#32, false) := by decide
/-- Vector A1. -/
theorem test_brc_apply_skipped :
    (after (exec .brcApply reset4)).map (fun t => (t.brc.applySkipped, t.brc.done, t.brc.busy)) =
      some (true, true, false) := by decide
/-- Program P1, edge c3. -/
theorem test_brc_apply_accepted :
    (after (exec .brcApply result4)).map (fun t => (t.brc.busy, t.brc.seq, t.brc.done)) =
      some (true, 1#4, false) := by decide
/-- Program P1, edge c4: row 1 is issued and the lock rises; the read is of `0x4000C00C`. -/
theorem test_row_one_request :
    waiting4.brc.transaction waiting4.cfg = some (.read 0x4000C00C#32) := by decide
/-- Vector A4, rows 2 and 4: `LCR = 0xFFFFFF1B` and `DLL = 0x5A5A5A01` with divisor 6. -/
theorem test_row_data :
    ({ result4.brc with seq := 2#4, busTmp := 0xFFFFFF1B } : Brc).writeData cfg4 = some 0xFFFFFF9B#32 ∧
    ({ result4.brc with seq := 4#4, busTmp := 0x5A5A5A01 } : Brc).writeData cfg4 = some 0x5A5A5A06#32 := ⟨rfl, rfl⟩
/-- Vector A4, rows 8 and 10: `LCR = 0xFFFFFF9B` and `FDR = 0xABCD0010` with the fraction 1/12. -/
theorem test_row_data_end :
    ({ result4.brc with seq := 8#4, busTmp := 0xFFFFFF9B } : Brc).writeData cfg4 = some 0xFFFFFF1B#32 ∧
    ({ result4.brc with seq := 10#4, busTmp := 0xABCD0010 } : Brc).writeData cfg4 = some 0xABCD00C1#32 := ⟨rfl, rfl⟩
/-- Program P1, edge c5: row 1 acknowledged. -/
theorem test_row_acknowledged :
    (after (exec .brcNop (waiting4.driveBus true 0x3))).map
      (fun t => (t.brc.seq, t.brc.busPend, t.brc.busTmp, t.brc.lock)) = some (2#4, false, 3, true) := by decide
/-- Vector B8. -/
theorem test_reserved_brc_word :
    faultOf (stepWith (.cclk 0b11#2 0 0 false 0) reset4) = some (.reservedCommand .brc 0b11) := by decide
/-- Vector B9. -/
theorem test_start_in_reset :
    (after (stepWith (.cclk 0b01#2 1536000#32 9600#32 false 0) (started4.driveResets false true true))).map (·.brc) =
      some Brc.reset := by decide

/-- Vector V1. -/
theorem test_brc_func_v1 : brcFunc .trunc 1536000 9600 = ⟨10, 0, 1⟩ := by decide +kernel
/-- Vector V18: the tie of neighbours goes to the smaller denominator. -/
theorem test_brc_func_v18 : brcFunc .trunc 512 31 = ⟨1, 0, 1⟩ := by decide +kernel
/-- Vector V9: the largest fraction. -/
theorem test_brc_func_v9 : brcFunc .trunc 1536000 48001 = ⟨1, 14, 15⟩ := by decide +kernel
/-- Vector V21: rounding to nearest. -/
theorem test_brc_func_v21 : brcFunc .nearest 48000000 9600 = ⟨313, 0, 1⟩ := by decide +kernel
/-- Section 2.4: `PW = 10`. -/
theorem test_gray_512 : gray 512 = 0b1100000000 ∧ bin 10 0b1000000000 = 1023 := by decide

/-- Program P2, step w5: `rq_w` shifts and the level falls. -/
theorem test_w_nop_shifts :
    (after (exec .wNop ring4)).map (fun t => (t.wr.rqW, t.sampling.rChg, t.wr.wbin)) =
      some ([0b001, 0], false, 2) := by decide
/-- Vector W2: `w_data` is ignored. -/
theorem test_w_nop_word_ignores_data :
    after (stepWith (.wclk 0b0_1111_1111#9 .current) reset4) = some reset4 := by decide
/-- Vector W1. -/
theorem test_w_push :
    (after (exec (.wPush 0x11#8) reset4)).map (fun t => (t.mem, t.wr.wbin, t.wr.wgray, t.wLevel, t.wEmpty)) =
      some ([(0, 0x11#8)], 1, 0b001, 1, false) := by decide
/-- Vector W3: dropped. -/
theorem test_w_push_dropped :
    (after (exec (.wPush 0x55#8) full4)).map (fun t => (t.wr.wbin, t.wr.wgray, t.wFull, t.mem)) =
      some (4, 0b110, true, full4.mem) := by decide
/-- Vector S2: with the draw of the previous value the first stage stays at 000. -/
theorem test_r_nop_draws_previous :
    (after (exec .rNop ((reset4.acceptPush 0x11#8).syncW.driveDrawW .previous))).map
      (fun t => (t.rd.wqR, t.sampling.wChg)) = some ([0, 0], false) := by decide
/-- Vector S1: with the current value it takes 001, and the level does not move yet. -/
theorem test_r_nop_draws_current :
    (after (exec .rNop (reset4.acceptPush 0x11#8).syncW)).map (fun t => (t.rd.wqR, t.rLevel)) =
      some ([0b001, 0], 0) := by decide
/-- Vector R6: the second pop returns 0x22 and empties the view. -/
theorem test_r_pop :
    (after (exec .rPop ring4)).map (fun t => (t.popped, t.rd.rbin, t.rd.rgray, t.rEmpty)) =
      some (some 0x22#8, 2, 0b011, true) := by decide
/-- Vector R1. -/
theorem test_r_pop_empty : faultOf (exec .rPop reset4) = some (.popEmpty .read 0) := by decide
/-- Vector R7. -/
theorem test_r_flush :
    (after (exec .rFlush (reset4.setRd ⟨0, 0, [0b010, 0b010]⟩))).map (fun t => (t.rd.rbin, t.rd.rgray, t.rLevel)) =
      some (3, 0b010, 0) := by decide
/-- Vector R2. -/
theorem test_r_flush_empty : after (exec .rFlush reset4) = some reset4 := by decide

/-! ## Invariant witnesses -/

theorem started4_inv : BrcInv started4.cfg started4.brc where
  busyOrDone := by decide
  unachIff := by decide
  resultLegal := by decide
  clearedWhileInvalid := by decide
  calcRunning := by decide
  applyRunning := by decide
  seqWhileApply := by decide
  seqBound := by decide
  pendWhileApply := by decide
  lockWindow := by decide
  tmpWidth := by decide

theorem result4_inv : BrcInv result4.cfg result4.brc where
  busyOrDone := by decide
  unachIff := by decide
  resultLegal := by decide
  clearedWhileInvalid := by decide
  calcRunning := by decide
  applyRunning := by decide
  seqWhileApply := by decide
  seqBound := by decide
  pendWhileApply := by decide
  lockWindow := by decide
  tmpWidth := by decide

theorem waiting4_inv : BrcInv waiting4.cfg waiting4.brc where
  busyOrDone := by decide
  unachIff := by decide
  resultLegal := by decide
  clearedWhileInvalid := by decide
  calcRunning := by decide
  applyRunning := by decide
  seqWhileApply := by decide
  seqBound := by decide
  pendWhileApply := by decide
  lockWindow := by decide
  tmpWidth := by decide

/-- The sentinel result, held after an unachievable target. -/
def unach4 : State :=
  reset4.setBrc { Brc.reset with resUnach := true, resValid := true, done := true }

theorem unach4_inv : BrcInv unach4.cfg unach4.brc where
  busyOrDone := by decide
  unachIff := by decide
  resultLegal := by decide
  clearedWhileInvalid := by decide
  calcRunning := by decide
  applyRunning := by decide
  seqWhileApply := by decide
  seqBound := by decide
  pendWhileApply := by decide
  lockWindow := by decide
  tmpWidth := by decide

theorem ring4_counts : RingCounts ring4 2 2 [2, 2] 1 0 [0, 0] where
  capacity := by decide
  depth := by decide
  stagesR := by decide
  stagesW := by decide
  write := ⟨by decide, by decide, by decide, by decide, by decide, by decide, by decide, by decide⟩
  read := ⟨by decide, by decide, by decide, by decide, by decide, by decide, by decide, by decide⟩
  readerBehind := by decide
  writerBounded := by decide
  stored := by
    intro c h1 h2
    obtain rfl : c = 1 := by omega
    decide
  inRing := by decide

theorem reset4_counts : RingCounts reset4 0 0 [0, 0] 0 0 [0, 0] where
  capacity := by decide
  depth := by decide
  stagesR := by decide
  stagesW := by decide
  write := ⟨by decide, by decide, by decide, by decide, by decide, by decide, by decide, by decide⟩
  read := ⟨by decide, by decide, by decide, by decide, by decide, by decide, by decide, by decide⟩
  readerBehind := by decide
  writerBounded := by decide
  stored := by intro c _ h; omega
  inRing := by decide

theorem ring4_inv : RingInv ring4 := by
  rw [RingInv, if_neg (by decide)]
  exact ⟨_, _, _, _, _, _, ring4_counts⟩

theorem reset4_inv : RingInv reset4 := by
  rw [RingInv, if_neg (by decide)]
  exact ⟨_, _, _, _, _, _, reset4_counts⟩

theorem zero_capacity_inv : RingInv (State.resetOf { cfg4 with n := 0 }) := by
  rw [RingInv, if_pos (by decide)]
  decide

theorem reset4_resets_held : ResetsHeld reset4 := ⟨by decide, by decide, by decide⟩

/-! ## Witnesses of the statements' hypotheses, named after the statement -/

/-- One edge of each port, in a state out of reset, with its word decoding. -/
theorem witness_StepRunsTheDecodedCommand :
    configRefusal waiting4.cfg = none ∧ waiting4.ports.crstN = true ∧ waiting4.ports.wrstN = true ∧
    waiting4.ports.rrstN = true ∧
    (waiting4.setScript [.cclk 0b01#2 1#32 1#32 true 0]).script = .cclk 0b01#2 1#32 1#32 true 0 :: [] ∧
    waiting4.brc.busReq = true ∧ decode (.brccmd 0b01#2 1#32 1#32) = .ok (.brcStart 1#32 1#32) ∧
    (waiting4.setScript [.wclk 0x141#9 .current]).script = .wclk 0x141#9 .current :: [] ∧
    decode (.wcmd 0x141#9) = .ok (.wPush 0x41#8) ∧
    (waiting4.setScript [.rclk 0b10#2 .previous]).script = .rclk 0b10#2 .previous :: [] ∧
    decode (.rcmd 0b10#2) = .ok .rFlush := by
  refine ⟨by decide, by decide, by decide, by decide, rfl, rfl, rfl, rfl, rfl, rfl, rfl⟩

theorem witness_EmptyScriptTakesTheFreeHost : State.reset.script = [] := rfl

/-- A reserved word at a busy BRC and at the read port. -/
theorem witness_ReservedWordFaults :
    configRefusal waiting4.cfg = none ∧ waiting4.ports.crstN = true ∧ waiting4.ports.rrstN = true ∧
    (waiting4.setScript [.cclk 0b11#2 0 0 true 0]).script = .cclk 0b11#2 0 0 true 0 :: [] ∧
    (waiting4.setScript [.rclk 0b11#2 .current]).script = .rclk 0b11#2 .current :: [] := by
  refine ⟨by decide, by decide, by decide, rfl, rfl⟩

theorem witness_AssertedResetIgnoresCommands :
    configRefusal (ring4.driveResets false false false).cfg = none ∧
    (ring4.driveResets false false false).ports.crstN = false ∧
    (ring4.driveResets false false false).ports.wrstN = false ∧
    (ring4.driveResets false false false).ports.rrstN = false ∧
    ((ring4.driveResets false false false).setScript [.cclk 0b11#2 0 0 false 0]).script =
      .cclk 0b11#2 0 0 false 0 :: [] ∧
    ((ring4.driveResets false false false).setScript [.wclk 0x1FF#9 .current]).script = .wclk 0x1FF#9 .current :: [] ∧
    ((ring4.driveResets false false false).setScript [.rclk 0b11#2 .current]).script =
      .rclk 0b11#2 .current :: [] := by
  refine ⟨by decide, by decide, by decide, by decide, rfl, rfl, rfl⟩

theorem witness_ResetsActAsOneStep :
    configRefusal ring4.cfg = none ∧
    (ring4.setScript [.resets false false false]).script = .resets false false false :: [] ∧
    (ring4.setScript [.resets true true true]).script = .resets true true true :: [] := by
  refine ⟨by decide, rfl, rfl⟩

theorem witness_ForbiddenActionsAreRefused :
    (∃ off ∈ [cfg4.offDll, cfg4.offDlm, cfg4.offIirFcr, 0x0D, cfg4.offLsr, cfg4.offFdr],
      ((cfg4.uartBase + off) % 2 ^ cfg4.aw) % (cfg4.regW / 8) ≠ 0) ∧
    configRefusal reset4.cfg = none ∧
    (reset4.setScript [.resets true true false]).script = .resets true true false :: [] ∧ (true ≠ false) ∧
    (reset4.setScript [.portOutOfDomain .brc]).script = .portOutOfDomain .brc :: [] ∧
    (reset4.setScript [.readOutOfDomain .read]).script = .readOutOfDomain .read :: [] ∧
    (reset4.setScript [.cclk 0b00#2 0 0 true 7]).script = .cclk 0b00#2 0 0 true 7 :: [] ∧
    reset4.brc.busReq = false ∧ 0b00#2 ≠ 0b11#2 := by
  refine ⟨⟨0x0D, by decide⟩, by decide, rfl, by decide, rfl, rfl, rfl, rfl, by decide⟩

/-- An idle BRC, one that calculates and one that applies. -/
theorem witness_BrcNopOnlyLetsWorkProgress :
    reset4.brc.busy = false ∧ (started4.brc.busy = true ∧ started4.brc.op = .calc) ∧
    (waiting4.brc.busy = true ∧ waiting4.brc.op = .apply) := by decide

theorem witness_StartLatchesOperandsAndClearsResult : result4.brc.busy = false ∧ started4.brc.busy = true := by decide

theorem witness_CommandsIgnoredWhileBusy : started4.brc.busy = true := by decide

/-- At the completing edge, and before it. -/
theorem witness_CalculationCountsDownAndCompletes :
    (Instr.brcStart 1#32 1#32).domain = .brc ∧ started4.brc.busy = true ∧ started4.brc.op = .calc ∧
    started4.brc.lat = 1 ∧ ({ started4.brc with lat := 3 } : Brc).busy = true := by decide

/-- A START followed by one ignored command, at `BRC_LATENCY = 1`, and by none. -/
theorem witness_StartCompletesAfterLatency :
    configRefusal reset4.cfg = none ∧ reset4.ports.crstN = true ∧ reset4.brc.busy = false ∧
    (∀ e ∈ [HostStep.cclk 0b10#2 0 0 false 9], silentBrcEdge e = true) ∧
    [HostStep.cclk 0b10#2 0 0 false 9].length = reset4.cfg.brcLatency ∧
    ([] : List HostStep).length < reset4.cfg.brcLatency := by decide

/-- Both sides of the range check, for both roundings, at the largest divisor and just above it. -/
theorem witness_BrcFuncFindsTheClosestFraction :
    ¬(1048575 = 0 ∨ 1 = 0 ∨ 1048575 / (16 * 1) = 0 ∨ 65535 < 1048575 / (16 * 1)) ∧
    (65535 < 1048576 / (16 * 1)) ∧ ((1048575 + 8 * 1) / (16 * 1) = 65536) := by decide

/-- `F = K`: the pair (0, 1) has error 0. -/
theorem witness_NumeratorTieBreakNeverDecides :
    0 < 16 ∧ LeastError 16 16 0 1 ∧ (∀ n' d', LeastError 16 16 n' d' → 1 ≤ d') := by
  refine ⟨by decide, ⟨⟨by decide, by decide⟩, ?_⟩, ?_⟩
  · intro n' d' _
    simp [ErrorAtMost, absError]
  · intro n' d' h
    have := h.1.1
    omega

/-- The thresholds' boundary values. -/
theorem witness_SentinelThresholds :
    0 < 16 ∧ 0 < 1 ∧ ¬(16 < 16 * 1 ∨ 1048576 * 1 ≤ 16) ∧ (15 < 16 * 1) ∧ (1048576 * 1 ≤ 1048576) := by decide

/-- A result with numerator 0, and a multiple within range at both ends. -/
theorem witness_ZeroNumeratorHasDenominatorOne :
    (brcFunc .trunc 512 31).num = 0 ∧ 0 < 9600 ∧ 1 ≤ 1 ∧ 65535 ≤ 65535 := by decide +kernel

theorem witness_SearchArithmeticBounds :
    2 ^ 32 - 1 < 2 ^ 32 ∧ 0 < 2 ^ 32 - 1 ∧ candidateDivisor .nearest (2 ^ 32 - 1) 4096 = 65536 ∧
    FractionPair 14 15 := ⟨by decide, by decide, by decide, by decide, by decide⟩

/-- A busy BRC, one without an achievable result, and one with. -/
theorem witness_ApplyIsSkippedOrAccepted :
    waiting4.brc.busy = true ∧ (unach4.brc.busy = false ∧ unach4.brc.resUnach = true) ∧
    (result4.brc.busy = false ∧ result4.brc.resValid = true ∧ result4.brc.resUnach = false) := by decide

theorem witness_SkippedApplyTouchesNoRegister :
    configRefusal unach4.cfg = none ∧ unach4.ports.crstN = true ∧ BrcInv unach4.cfg unach4.brc ∧
    unach4.brc.busy = false ∧ (unach4.brc.resValid = false ∨ unach4.brc.resUnach = true) ∧
    (∀ e ∈ [HostStep.cclk 0b00#2 1 1 false 7], ∃ f b rdata, e = .cclk 0b00#2 f b false rdata) := by
  refine ⟨by decide, by decide, unach4_inv, by decide, by decide, ?_⟩
  intro e he
  exact ⟨1, 1, 7, by simpa using he⟩

/-- Row 1 and row 10. -/
theorem witness_TransactionTable :
    waiting4.brc.seq = 1#4 ∧ ({ waiting4.brc with seq := 10#4 } : Brc).seq = 10#4 := by decide

/-- Issue, completion and hold. -/
theorem witness_TransactionStepIssuesCompletesOrHolds :
    Instr.brcNop.domain = .brc ∧ waiting4.brc.busy = true ∧ waiting4.brc.op = .apply ∧ 1#4 ≤ waiting4.brc.seq ∧
    waiting4.brc.seq ≤ 10#4 ∧ waiting4.brc.busPend = true ∧ waiting4.ports.busAck = false ∧
    (waiting4.driveBus true 3).ports.busAck = true ∧ ({ waiting4.brc with busPend := false } : Brc).busPend = false ∧
    waiting4.brc.transaction waiting4.cfg = some (.read 0x4000C00C#32) := by decide

theorem witness_UnacknowledgedTransactionHoldsForEver :
    configRefusal waiting4.cfg = none ∧ waiting4.ports.crstN = true ∧ BrcInv waiting4.cfg waiting4.brc ∧
    waiting4.brc.waitsForAck = true ∧ (∀ e ∈ [HostStep.cclk 0b01#2 1 1 false 7], silentBrcEdge e = true) ∧
    waiting4.brc.seq ≤ 8#4 :=
  ⟨by decide, by decide, waiting4_inv, by decide, by decide, by decide⟩

/-- Bits 7 and 31 of row 2's data. -/
theorem witness_WritesPreserveOtherBits :
    7 < cfg4.regW ∧ 31 < cfg4.regW ∧
    ({ result4.brc with seq := 2#4, busTmp := 0xFFFFFF1B } : Brc).writeData cfg4 = some 0xFFFFFF9B#32 ∧
    busRow 2#4 = some ⟨true, .lcr, true⟩ := ⟨by decide, by decide, rfl, rfl⟩

/-- The conforming run of vector A3: each request acknowledged at the edge after its issue, ten in all. -/
theorem apply4_finished :
    (uartRun cfg4 (List.replicate 10 [false, true]).flatten
      (result4.setBrc result4.brc.acceptApply, uart0)).1.brc.busy = false := by decide +kernel

theorem targets4_apart : TargetsApart cfg4 := by
  intro x y
  cases x <;> cases y <;> decide

theorem witness_ApplyLeavesTheUartConfigured :
    configRefusal result4.cfg = none ∧ TargetsApart result4.cfg ∧ result4.brc.busy = false ∧ result4.brc.canApply = true ∧
    exec .brcApply result4 = .next (result4.setBrc result4.brc.acceptApply) ∧
    (uartRun cfg4 (List.replicate 10 [false, true]).flatten
      (result4.setBrc result4.brc.acceptApply, uart0)).1.brc.busy = false :=
  ⟨by decide, targets4_apart, by decide, by decide, rfl, apply4_finished⟩

/-- An accepted APPLY of program P1, with a slave that is never ready and one ready at twenty edges. -/
theorem witness_ApplyFinishesWhenAcknowledged :
    result4.brc.busy = false ∧ result4.brc.canApply = true ∧
    exec .brcApply result4 = .next (result4.setBrc result4.brc.acceptApply) ∧
    (List.replicate 19 false).length < 20 ∧ 20 ≤ (List.replicate 20 true).count true :=
  ⟨by decide, by decide, rfl, by decide, by decide⟩

theorem witness_ApplyIsIdempotent :
    configRefusal result4.cfg = none ∧ TargetsApart result4.cfg ∧ result4.brc.busy = false ∧ result4.brc.canApply = true ∧
    exec .brcApply result4 = .next (result4.setBrc result4.brc.acceptApply) ∧
    (uartRun cfg4 (List.replicate 10 [false, true]).flatten
      (result4.setBrc result4.brc.acceptApply, uart0)).1.brc.busy = false :=
  ⟨by decide, targets4_apart, by decide, by decide, rfl, apply4_finished⟩

theorem witness_ImagesShowTheResult :
    result4.brc.resDivadd = 1#4 ∧ result4.brc.resMul = 12#4 ∧ BrcInv started4.cfg started4.brc ∧
    started4.brc.resValid = false := ⟨by decide, by decide, started4_inv, by decide⟩

theorem witness_FdrImageIsLegal :
    BrcInv result4.cfg result4.brc ∧ result4.brc.resValid = true ∧ result4.brc.resUnach = false ∧
    BrcInv unach4.cfg unach4.brc ∧ unach4.brc.resValid = true ∧ unach4.brc.resUnach = true :=
  ⟨result4_inv, by decide, by decide, unach4_inv, by decide, by decide⟩

theorem witness_StepKeepsTheBrcRegistersLegal :
    BrcInv waiting4.cfg waiting4.brc ∧
    (after (stepWith (.cclk 0b00#2 0 0 true 3) waiting4)).isSome = true := ⟨waiting4_inv, by decide⟩

theorem witness_GrayCodeIsInvertibleAndOneBit : 7 < 2 ^ 3 ∧ 2 < 3 ∧ 0 < 3 := by decide

/-- A crossing that has changed, with each draw, and one that has not. -/
theorem witness_FirstStageCapturesCurrentOrPrevious :
    ring4.sampling.wChg = false ∧ ring4.sampling.rChg = true ∧ ring4.ports.drawR = .current ∧
    (ring4.driveDrawR .previous).ports.drawR = .previous ∧ (reset4.acceptPush 1#8).sampling.wChg = true := by decide

theorem witness_EveryEdgeShiftsItsSynchroniser :
    exec .wNop ring4 = .next ring4.syncW ∧ Instr.wNop.domain = .write ∧ 0 + 1 < ring4.wr.rqW.length ∧
    exec .rFlush ring4 = .next ring4.flushView.syncR ∧ Instr.rFlush.domain = .read ∧
    0 + 1 < ring4.rd.wqR.length := ⟨rfl, rfl, by decide, rfl, rfl, by decide⟩

/-- An edge that moves the pointer and one that does not, in each domain. -/
theorem witness_SamplingBitsTrackPointerChanges :
    exec .rFlush ring4 = .next ring4.flushView.syncR ∧ ring4.flushView.syncR.rd.rgray ≠ ring4.rd.rgray ∧
    exec .rNop ring4 = .next ring4.syncR ∧ ring4.syncR.rd.rgray = ring4.rd.rgray ∧
    exec (.wPush 1#8) ring4 = .next (ring4.acceptPush 1#8).syncW ∧
    (ring4.acceptPush 1#8).syncW.wr.wgray ≠ ring4.wr.wgray := ⟨rfl, by decide, rfl, by decide, rfl, by decide⟩

theorem witness_AcceptedPushStoresItsByte : ring4.wFull = false ∧ (0 : Nat) ≠ ring4.wr.wbin % 2 ^ ring4.cfg.k := by decide

theorem witness_PushOnFullIsDropped : full4.wFull = true := by decide

theorem witness_PopReturnsTheOldestByte : ring4.rEmpty = false := by decide

theorem witness_PopOfAnEmptyViewFaults :
    reset4.rEmpty = true ∧ (State.resetOf { cfg4 with n := 0 }).cfg.n = 0 ∧
    exec .rPop reset4 = .fault (.popEmpty .read 0) := ⟨by decide, by decide, rfl⟩

/-- A ring, and a block without one. -/
theorem witness_FlushTakesTheWritePointerView : ring4.cfg.n ≠ 0 ∧ (State.resetOf { cfg4 with n := 0 }).cfg.n = 0 := by
  decide

theorem witness_ZeroCapacityHoldsNothing :
    (State.resetOf { cfg4 with n := 0 }).cfg.n = 0 ∧ RingInv (State.resetOf { cfg4 with n := 0 }) :=
  ⟨by decide, zero_capacity_inv⟩

theorem witness_StepKeepsTheRingInvariant :
    RingInv ring4 ∧ (after (stepWith (.rclk 0b01#2 .previous) ring4)).isSome = true := ⟨ring4_inv, by decide⟩

theorem witness_ViewsNeverDecrease :
    RingCounts ring4 2 2 [2, 2] 1 0 [0, 0] ∧ exec .rFlush ring4 = .next ring4.flushView.syncR := ⟨ring4_counts, rfl⟩

/-- The read view not empty, and a live byte. -/
theorem witness_LevelsBracketTheLiveBytes :
    RingInv ring4 ∧ ring4.rEmpty = false ∧ ring4.live = [some 0x22#8] := ⟨ring4_inv, by decide, by decide⟩

theorem witness_GrayCompareFormsAgree : RingInv ring4 ∧ ring4.cfg.n ≠ 0 := ⟨ring4_inv, by decide⟩

theorem witness_EveryCommandIsAQueueStep :
    RingInv ring4 ∧ exec (.wPush 1#8) ring4 = .next (ring4.acceptPush 1#8).syncW := ⟨ring4_inv, rfl⟩

/-- A pop by the reader, after a BRC edge and a reset of BRC. -/
theorem witness_BytesLeaveInPushOrder :
    RingInv ring4 ∧ ring4.ports.wrstN = true ∧ ring4.ports.rrstN = true ∧
    (∀ e ∈ [HostStep.cclk 0b00#2 0 0 false 0, .resets false true true, .rclk 0b01#2 .current],
      ∀ c w r, e = .resets c w r → w = true ∧ r = true) ∧
    (playBytes [HostStep.cclk 0b00#2 0 0 false 0, .resets false true true, .rclk 0b01#2 .current] ring4).isSome = true :=
  ⟨ring4_inv, by decide, by decide, by simp, by decide⟩

/-- Fewer edges than stages, as many with every draw current, and one more with any draw. -/
theorem witness_ViewCatchesUpWithinLatency :
    configRefusal ring4.cfg = none ∧ ring4.ports.rrstN = true ∧ ring4.rd.wqR.length = ring4.cfg.stages ∧
    ring4.ports.wrstN = true ∧ ring4.wr.rqW.length = ring4.cfg.stages ∧
    [Draw.current].length < ring4.cfg.stages ∧ ring4.cfg.stages ≤ [Draw.current, .current].length ∧
    (∀ d ∈ [Draw.current, .current], d = .current) ∧
    ring4.cfg.stages + 1 ≤ [Draw.previous, .previous, .previous].length := by decide

/-- Five pushes with a read-domain edge among them, into `N = 4`. -/
theorem witness_OverflowKeepsTheFirstBytes :
    configRefusal reset4.cfg = none ∧ RingInv reset4 ∧ reset4.cfg.n ≠ 0 ∧ reset4.ports.wrstN = true ∧
    reset4.ports.rrstN = true ∧ reset4.wLevel = 0 ∧
    (∀ e ∈ [HostStep.wclk 0x101#9 .current, .wclk 0x102#9 .current, .rclk 0b00#2 .previous, .wclk 0x103#9 .current,
      .wclk 0x104#9 .current, .wclk 0x105#9 .current], writeOrReadIdle e = true) ∧
    ([HostStep.wclk 0x101#9 .current, .wclk 0x102#9 .current, .rclk 0b00#2 .previous, .wclk 0x103#9 .current,
      .wclk 0x104#9 .current, .wclk 0x105#9 .current].filterMap pushedByte).length = reset4.cfg.n + 1 ∧
    [Draw.current, .previous, .current].length = reset4.cfg.stages + 1 :=
  ⟨by decide, reset4_inv, by decide, by decide, by decide, by decide, by decide, by decide, by decide⟩

theorem witness_StepKeepsTheRingStorageCanonical :
    Memory.wf ring4.mem = true ∧ (after (stepWith (.wclk 0x1FF#9 .current) ring4)).isSome = true := by decide

theorem witness_StepKeepsAssertedResetsHeld :
    ResetsHeld reset4 ∧ (after (stepWith (.resets false false false) reset4)).isSome = true :=
  ⟨reset4_resets_held, by decide⟩

theorem witness_ResetMeetsTheInvariants : configRefusal cfg4 = none := by decide

theorem witness_ResetValues : reset4 = State.resetOf cfg4 ∧ cfg4.n ≠ 0 := ⟨rfl, by decide⟩

theorem witness_ConfigurationNeverChanges :
    (after (stepWith (.wclk 0x1FF#9 .current) ring4)).isSome = true := by decide

theorem witness_CommandsStayInTheirDomain :
    exec .rFlush ring4 = .next ring4.flushView.syncR ∧ exec .brcNop ring4 = .next (ring4.setBrc ring4.brcProgress) ∧
    exec .wNop ring4 = .next ring4.syncW := ⟨rfl, rfl, rfl⟩

/-- Two states that agree on one unit and differ on the other. -/
theorem witness_UnitsDoNotInfluenceEachOther :
    reset4.cfg = ring4.cfg ∧ reset4.brc = ring4.brc ∧ reset4.ports.busAck = ring4.ports.busAck ∧
    reset4.ports.busRdata = ring4.ports.busRdata ∧ reset4.wr ≠ ring4.wr ∧
    reset4.cfg = waiting4.cfg ∧ reset4.wr = waiting4.wr ∧ reset4.rd = waiting4.rd ∧ reset4.mem = waiting4.mem ∧
    reset4.sampling = waiting4.sampling ∧ reset4.ports.drawW = waiting4.ports.drawW ∧
    reset4.ports.drawR = waiting4.ports.drawR ∧ reset4.popped = waiting4.popped ∧ reset4.brc ≠ waiting4.brc := by decide

end Sys2Proof.Tests
end

/-!
PROOFS. The statements of 00_scope.md: the capacities a step refuses (R7), the free HOST (R8, R9) and the configuration
(R6), with the inversion lemma of a refused step they rest on.
-/
namespace Sys2Proof.Machine

/-! ## Refused steps -/

/-- No command's meaning refuses: it completes or, for a pop of an empty view, faults (R165). -/
theorem exec_ne_refused (i : Instr) (s : State) (r : Refusal) : exec i s ≠ .refused r := by
  cases i with
  | rPop => cases he : s.rEmpty <;> simp [exec, execRPop, he]
  | brcNop | brcStart _ _ | brcApply | wNop | wPush _ | rNop | rFlush => exact nofun

/-- A sampled word is a command or a fault (R80, R167). -/
theorem planWord_ne_refused (w : CmdWord) (s : State) (r : Refusal) :
    planWord w s ≠ .answer (.refused r) := by
  unfold planWord
  split <;> simp

/-- An edge in its own domain, in reset or not, is not refused (R174, R186). -/
theorem planWord_or_reset_ne_refused (rstN : Bool) (w : CmdWord) (s t : State) (r : Refusal) :
    (if rstN then planWord w s else .answer (.next t)) ≠ .answer (.refused r) := by
  cases rstN with
  | true => exact planWord_ne_refused w s r
  | false => exact nofun

/-- The check of the bus duty adds one refusal, and only where the duty is broken (R197, R199). -/
theorem refuseStrayAck_refused {ack : Bool} {s : State} {p : Plan} {r : Refusal}
    (h : refuseStrayAck ack s p = .answer (.refused r)) :
    p = .answer (.refused r) ∨ ack = true ∧ s.brc.busReq = false ∧ r = .ackWithoutRequest := by
  unfold refuseStrayAck at h
  split at h
  · cases h
  all_goals
    split at h
    · next hk => cases h; exact .inr (by simpa using hk)
    · exact .inl h

/-- Driving the resets is refused only with unequal ARB levels (R187). -/
theorem applyResets_refused {s : State} {c w r : Bool} {x : Refusal} (h : s.applyResets c w r = .refused x) :
    w ≠ r ∧ x = .partialArbReset := by
  unfold State.applyResets at h
  split at h
  · cases h
  · next hw => cases h; exact ⟨hw, rfl⟩

/-- A HOST step is refused for one ARB reset without the other, a port driven or an output read out of its domain, or an
acknowledgement without a request, and for nothing else (R163, R187, R199, R201). -/
theorem planStep_refused {e : HostStep} {s : State} {x : Refusal} (h : planStep e s = .answer (.refused x)) :
    (∃ c w r, e = .resets c w r ∧ w ≠ r ∧ x = .partialArbReset) ∨
    (∃ p, e = .portOutOfDomain p ∧ x = .portOutOfDomain p) ∨
    (∃ p, e = .readOutOfDomain p ∧ x = .readOutOfDomain p) ∨
    (∃ op f b rdata, e = .cclk op f b true rdata ∧ s.brc.busReq = false ∧ x = .ackWithoutRequest) := by
  cases e with
  | cclk op f b ack rdata =>
    obtain hp | ⟨rfl, hreq, rfl⟩ := refuseStrayAck_refused h
    · exact absurd hp (planWord_or_reset_ne_refused _ _ _ _ _)
    · exact .inr (.inr (.inr ⟨op, f, b, rdata, rfl, hreq, rfl⟩))
  | wclk w d => exact absurd h (planWord_or_reset_ne_refused _ _ _ _ _)
  | rclk op d => exact absurd h (planWord_or_reset_ne_refused _ _ _ _ _)
  | resets c w r => exact .inl ⟨c, w, r, rfl, applyResets_refused (Plan.answer.inj h)⟩
  | portOutOfDomain p => cases h; exact .inr (.inl ⟨p, rfl, rfl⟩)
  | readOutOfDomain p => cases h; exact .inr (.inr (.inl ⟨p, rfl, rfl⟩))

/-- A refused configuration has no step (R7, R55, R170). -/
theorem step_of_configRefusal {s : State} {r : Refusal} (h : configRefusal s.cfg = some r) :
    step s = .refused r := by
  simp [step, plan, h]

/-- With an accepted configuration the plan is that of the HOST step taken. -/
theorem plan_of_accepted {s : State} (h : configRefusal s.cfg = none) :
    plan s = planStep s.takeHostStep.1 s.takeHostStep.2 := by
  simp [plan, h]

/-- A step is refused for its configuration, or for its HOST step. -/
theorem step_refused {s : State} {x : Refusal} (h : step s = .refused x) :
    configRefusal s.cfg = some x ∨
    configRefusal s.cfg = none ∧ planStep s.takeHostStep.1 s.takeHostStep.2 = .answer (.refused x) := by
  cases hc : configRefusal s.cfg with
  | some r => rw [step_of_configRefusal hc] at h; cases h; exact .inl rfl
  | none =>
    rw [← plan_of_accepted hc]
    unfold step at h
    split at h
    · exact absurd h (exec_ne_refused _ _ _)
    · next hp => subst h; exact .inr ⟨rfl, hp⟩

/-! ## Capacities (R7) -/

/-- The executable check of `N` is R7's condition. -/
theorem capacityOk_iff (n : Nat) : capacityOk n = true ↔ n = 0 ∨ ∃ k, k ≤ 16 ∧ n = 2 ^ k := by
  have hmax : (65536 : Nat) = 2 ^ 16 := rfl
  simp only [capacityOk, Bool.or_eq_true, Bool.and_eq_true, beq_iff_eq, decide_eq_true_eq, hmax]
  refine or_congr_right ⟨fun ⟨hpow, hle⟩ => ⟨Nat.log2 n, ?_, hpow⟩, ?_⟩
  · exact (Nat.pow_le_pow_iff_right (by decide)).mp (hpow ▸ hle)
  · rintro ⟨k, hk, rfl⟩
    exact ⟨by rw [Nat.log2_two_pow], Nat.pow_le_pow_right (by decide) hk⟩

/-- A configuration is refused for its capacity exactly when the check of `N` fails; it is the first check made. -/
theorem configRefusal_badCapacity_iff (c : Config) :
    configRefusal c = some (.badCapacity c.n) ↔ ¬capacityOk c.n = true := by
  unfold configRefusal
  cases capacityOk c.n with
  | false => simp
  | true => simp only [Bool.not_true, Bool.false_eq_true, if_false]; split_ifs <;> simp

/-- Settles O9: only the configuration's check raises `badCapacity`, since no HOST step is refused for a capacity. -/
theorem capacityRefusedExactlyWhenIllegal : Obligations.CapacityRefusedExactlyWhenIllegal := by
  intro s
  rw [← capacityOk_iff, ← configRefusal_badCapacity_iff]
  refine ⟨fun h => ?_, step_of_configRefusal⟩
  obtain hc | ⟨-, hp⟩ := step_refused h
  · exact hc
  · obtain ⟨_, _, _, -, -, hx⟩ | ⟨_, -, hx⟩ | ⟨_, -, hx⟩ | ⟨_, _, _, _, -, -, hx⟩ := planStep_refused hp <;> cases hx

/-! ## The free HOST (R8, R9) -/

theorem takeHostStep_script_cons {s : State} {e : HostStep} {rest : List HostStep} (h : s.script = e :: rest) :
    s.takeHostStep = (e, s.setScript rest) := by
  simp [State.takeHostStep, h]

theorem takeHostStep_script_nil {s : State} (h : s.script = []) :
    s.takeHostStep = (Config.hostStep s.tick, s.setTick (s.tick + 1)) := by
  simp [State.takeHostStep, h]

/-- A step is a function of the configuration and the HOST step taken. -/
theorem step_congr {s t : State} (hc : s.cfg = t.cfg) (hh : s.takeHostStep = t.takeHostStep) : step s = step t := by
  simp only [step, plan, hc, hh]

/-- Settles O5: both states have the configuration of `s` and take the free HOST's step with the same state left. -/
theorem emptyScriptTakesTheFreeHost : Obligations.EmptyScriptTakesTheFreeHost := by
  intro s hs
  refine step_congr rfl ?_
  have hleft : s.setTick (s.tick + 1) = { s with script := [], tick := s.tick + 1 } := by
    rw [← hs]; rfl
  rw [takeHostStep_script_nil hs, takeHostStep_script_cons rfl, hleft]
  rfl

/-! ## The configuration (R6) -/

@[simp] theorem flushView_cfg (s : State) : s.flushView.cfg = s.cfg := by
  unfold State.flushView
  split <;> simp

/-- No command changes the configuration. -/
theorem exec_cfg {i : Instr} {s t : State} (h : exec i s = .next t) : t.cfg = s.cfg := by
  obtain ⟨-, rfl⟩ | ⟨f, b, -, rfl⟩ | ⟨-, rfl⟩ | ⟨-, rfl⟩ | ⟨d, -, rfl⟩ | ⟨-, rfl⟩ | ⟨-, -, rfl⟩ | ⟨-, rfl⟩ := exec_next h
  all_goals simp [apply_ite State.cfg]

/-- Driving the resets does not change the configuration (R187, R188). -/
theorem applyResets_cfg {s t : State} {c w r : Bool} (h : s.applyResets c w r = .next t) : t.cfg = s.cfg := by
  obtain ⟨-, rfl⟩ := applyResets_next h
  split_ifs <;> simp

/-- Settles O58: a step takes a HOST step, samples ports, and runs a command or resets, and none of these writes the
configuration. -/
theorem configurationNeverChanges : Obligations.ConfigurationNeverChanges := by
  intro s t h
  rw [← (takeHostStep_frame s).1]
  obtain ⟨-, ⟨op, f, b, ack, rdata, i, -, -, -, -, hx⟩ | ⟨op, f, b, ack, rdata, -, -, -, rfl⟩ |
    ⟨w, d, i, -, -, -, hx⟩ | ⟨w, d, -, -, rfl⟩ | ⟨op, d, i, -, -, -, hx⟩ | ⟨op, d, -, -, rfl⟩ | ⟨c, w, r, -, hx⟩⟩ :=
    step_next h
  · simpa using exec_cfg hx
  · simp
  · simpa using exec_cfg hx
  · simp
  · simpa using exec_cfg hx
  · simp
  · exact applyResets_cfg hx

end Sys2Proof.Machine

/-!
PROOFS. The statement of 10_state.md: every step keeps BRC's registers as R22 to R31 and R115 say, from one lemma per
operation on them and the legality of the result BRC_FUNC gives (R95, R99).
-/
namespace Sys2Proof.Machine

/-! ## The results of BRC_FUNC (R95, R96, R99) -/

/-- The search list holds only pairs of R99. -/
theorem fractionPair_of_mem {n d : Nat} (h : (n, d) ∈ fractionPairs) : FractionPair n d := by
  obtain ⟨i, hi, hp⟩ := List.mem_flatMap.mp h
  obtain ⟨m, hm, heq⟩ := List.mem_map.mp hp
  cases heq
  exact ⟨List.mem_range.mp hm, List.mem_range.mp hi⟩

/-- One turn of the search takes the pair tried or keeps the best one. -/
theorem keepCloser_cases (f k : Nat) (best : Option (Nat × Nat)) (p : Nat × Nat) :
    keepCloser f k best p = some p ∨ keepCloser f k best p = best := by
  unfold keepCloser
  split
  · exact .inl rfl
  · split
    · exact .inl rfl
    · exact .inr rfl

/-- What the search ends with is what it began with or one of the pairs tried. -/
theorem foldl_keepCloser_mem {f k : Nat} {p : Nat × Nat} (ps : List (Nat × Nat)) (best : Option (Nat × Nat))
    (h : ps.foldl (keepCloser f k) best = some p) : best = some p ∨ p ∈ ps := by
  induction ps generalizing best with
  | nil => exact .inl h
  | cons q qs ih =>
    obtain hbest | hmem := ih _ h
    · obtain hq | hkept := keepCloser_cases f k best q
      · cases hq.symm.trans hbest; exact .inr List.mem_cons_self
      · exact .inl (hkept ▸ hbest)
    · exact .inr (List.mem_cons_of_mem q hmem)

/-- The search finds a pair of R99. -/
theorem searchFraction_fractionPair {f k n d : Nat} (h : searchFraction f k = some (n, d)) : FractionPair n d := by
  obtain hnone | hmem := foldl_keepCloser_mem fractionPairs none h
  · cases hnone
  · exact fractionPair_of_mem hmem

/-- A result is the sentinel or a 16-bit divisor with a pair of R99 (R95, R103). -/
theorem brcFunc_sentinel_or_legal (r : DivRound) (f b : Nat) :
    brcFunc r f b = .sentinel ∨
    (1 ≤ (brcFunc r f b).dl ∧ (brcFunc r f b).dl ≤ 65535 ∧ FractionPair (brcFunc r f b).num (brcFunc r f b).den) := by
  unfold brcFunc
  split
  · exact .inl rfl
  · extract_lets d0
    split
    · exact .inl rfl
    · next hrange =>
      simp only [dlMax, not_or, not_lt] at hrange
      split
      · next n d hfound =>
        exact .inr ⟨Nat.one_le_iff_ne_zero.mpr hrange.1, hrange.2, searchFraction_fractionPair hfound⟩
      · exact .inl rfl

/-! ## What the invariant says of an idle BRC and of a pending transaction -/

/-- An idle BRC has no transaction and no lock (R30, R31, R115). -/
theorem BrcInv.idle {c : Config} {b : Brc} (h : BrcInv c b) (hb : b.busy = false) :
    b.seq = 0#4 ∧ b.busPend = false ∧ b.lock = false := by
  have hseq : b.seq = 0#4 := by
    by_contra hne
    obtain ⟨hbusy, -⟩ := h.seqWhileApply.mp hne
    simp [hb] at hbusy
  have hpend : b.busPend = false := by
    by_contra hne
    exact h.pendWhileApply (by simpa using hne) hseq
  refine ⟨hseq, hpend, ?_⟩
  simpa [hseq] using h.lockWindow

/-- While a transaction is pending the lock is held exactly in rows 1 to 8 (R115). -/
theorem BrcInv.lock_iff_of_pending {c : Config} {b : Brc} (h : BrcInv c b) (hp : b.busPend = true) :
    b.lock = true ↔ b.seq ≤ 8#4 := by
  have hne := h.pendWhileApply hp
  rw [h.lockWindow]
  simp only [hp, and_true]
  bv_omega

/-! ## The operations on BRC's registers -/

/-- The reset values of BRC are legal (R185). -/
theorem BrcInv.reset (c : Config) : BrcInv c Brc.reset where
  busyOrDone := by decide
  unachIff := by decide
  resultLegal := by decide
  clearedWhileInvalid := by decide
  calcRunning := nofun
  applyRunning := nofun
  seqWhileApply := by decide
  seqBound := by decide
  pendWhileApply := nofun
  lockWindow := by decide
  tmpWidth := Nat.two_pow_pos c.regW

/-- An accepted BRC.START has a countdown to make, since the latency is at least 1 (R28, R91). -/
theorem BrcInv.acceptStart {c : Config} {x : Brc} (h : BrcInv c x) (hidle : x.busy = false) (hlat : 1 ≤ c.brcLatency)
    (f b : Word32) : BrcInv c (x.acceptStart c f b) := by
  obtain ⟨hseq, hpend, hlock⟩ := h.idle hidle
  exact {
    busyOrDone := by simp [Brc.acceptStart, Brc.flagsAccepted]
    unachIff := by simp [Brc.acceptStart]
    resultLegal := .inl ⟨rfl, rfl, rfl⟩
    clearedWhileInvalid := fun _ => ⟨rfl, rfl, rfl⟩
    calcRunning := fun _ _ => ⟨hlat, le_rfl, rfl⟩
    applyRunning := nofun
    seqWhileApply := by simp [Brc.acceptStart, Brc.flagsAccepted, hseq]
    seqBound := h.seqBound
    pendWhileApply := h.pendWhileApply
    lockWindow := h.lockWindow
    tmpWidth := h.tmpWidth }

/-- An accepted BRC.APPLY begins at row 1 with the lock not yet taken (R111). -/
theorem BrcInv.acceptApply {c : Config} {b : Brc} (h : BrcInv c b) (hcan : b.canApply = true) :
    BrcInv c b.acceptApply :=
  { h with
    busyOrDone := by simp [Brc.acceptApply, Brc.flagsAccepted]
    calcRunning := nofun
    applyRunning := fun _ _ => hcan
    seqWhileApply := by simp [Brc.acceptApply, Brc.flagsAccepted]
    seqBound := by simp [Brc.acceptApply]
    pendWhileApply := nofun
    lockWindow := by simp [Brc.acceptApply] }

/-- A skipped BRC.APPLY leaves BRC idle (R111, R118). -/
theorem BrcInv.skipApply {c : Config} {b : Brc} (h : BrcInv c b) (hidle : b.busy = false) : BrcInv c b.skipApply :=
  { h with busyOrDone := by simp [Brc.skipApply, hidle] }

/-- A count that is not the last leaves edges to go (R28, R93). -/
theorem BrcInv.count {c : Config} {b : Brc} (h : BrcInv c b) (hlast : b.lat ≠ 1) :
    BrcInv c { b with lat := b.lat - 1 } :=
  { h with
    calcRunning := fun hbusy hop => by
      obtain ⟨hpos, hle, hinvalid⟩ := h.calcRunning hbusy hop
      exact ⟨by simp only; omega, by simp only; omega, hinvalid⟩ }

/-- A completed calculation holds the sentinel or a divisor with a proper fraction, each in its register's width, and
leaves BRC idle (R23, R24, R93); the countdown `n` it ends with does not matter. -/
theorem BrcInv.completeCalc {c : Config} {b : Brc} (h : BrcInv c b) (hcalc : b.op = .calc) (n : Nat) :
    BrcInv c (({ b with lat := n } : Brc).completeCalc c) := by
  have hseq : b.seq = 0#4 := by
    by_contra hne
    obtain ⟨-, hop⟩ := h.seqWhileApply.mp hne
    cases hcalc.symm.trans hop
  have hres := brcFunc_sentinel_or_legal c.divRound b.inClk.toNat b.inBaud.toNat
  exact {
    busyOrDone := nofun
    unachIff := by
      simp only [Brc.completeCalc, beq_iff_eq, true_and]
      obtain hsent | ⟨hpos, hmax, -⟩ := hres
      · simp [hsent, BaudResult.sentinel]
      · bv_omega
    resultLegal := by
      obtain hsent | ⟨hpos, hmax, hnum, hden⟩ := hres
      · left
        simp [Brc.completeCalc, hsent, BaudResult.sentinel]
      · right
        simp only [Brc.completeCalc]
        constructor <;> bv_omega
    clearedWhileInvalid := nofun
    calcRunning := nofun
    applyRunning := nofun
    seqWhileApply := by simp [Brc.completeCalc, Brc.flagsCompleted, hseq]
    seqBound := h.seqBound
    pendWhileApply := h.pendWhileApply
    lockWindow := h.lockWindow
    tmpWidth := h.tmpWidth }

/-- Issuing row 1 takes the lock; rows 2 to 8 have it already and rows 9 and 10 do not take it (R113, R115). -/
theorem BrcInv.issue {c : Config} {b : Brc} (h : BrcInv c b) (hbusy : b.busy = true) (happly : b.op = .apply)
    (hpend : b.busPend = false) : BrcInv c b.issue :=
  { h with
    pendWhileApply := fun _ => h.seqWhileApply.mpr ⟨hbusy, happly⟩
    lockWindow := by
      have hlock := h.lockWindow
      simp only [hpend, Bool.false_eq_true, and_false, false_or] at hlock
      by_cases hrow : b.seq = 1#4
      · simp [Brc.issue, hrow]
      · simp [Brc.issue, hrow, hlock] }

/-- The data captured by a read row has the register's width (R31, R113). -/
theorem captured_lt {w rdata old : Nat} (read : Bool) (hold : old < 2 ^ w) :
    (if read then rdata % 2 ^ w else old) < 2 ^ w := by
  split
  · exact Nat.mod_lt _ (Nat.two_pow_pos w)
  · exact hold

/-- The acknowledgement of row 10 ends the operation: BRC is idle, outside the lock (R113, R121). -/
theorem BrcInv.acknowledge_last {c : Config} {b : Brc} (h : BrcInv c b) (hpend : b.busPend = true)
    (hrow : b.seq = 10#4) (rdata : Nat) : BrcInv c (b.acknowledge c rdata) := by
  have hlock := h.lock_iff_of_pending hpend
  rw [Brc.acknowledge, if_pos hrow]
  exact { h with
    busyOrDone := nofun
    calcRunning := nofun
    applyRunning := nofun
    seqWhileApply := by simp [Brc.flagsCompleted]
    seqBound := by simp
    pendWhileApply := nofun
    lockWindow := by simpa [Brc.flagsCompleted, hrow] using hlock
    tmpWidth := captured_lt _ h.tmpWidth }

/-- The acknowledgement of a row before row 10 moves to the next row, and that of row 8 releases the lock
(R113, R115). -/
theorem BrcInv.acknowledge_row {c : Config} {b : Brc} (h : BrcInv c b) (hpend : b.busPend = true)
    (hrow : b.seq ≠ 10#4) (rdata : Nat) : BrcInv c (b.acknowledge c rdata) := by
  have hpos := h.pendWhileApply hpend
  have hbound := h.seqBound
  have hlock := h.lock_iff_of_pending hpend
  have hrun := h.seqWhileApply.mp hpos
  rw [Brc.acknowledge, if_neg hrow]
  exact { h with
    seqWhileApply := ⟨fun _ => hrun, fun _ => by bv_omega⟩
    seqBound := by bv_omega
    pendWhileApply := nofun
    lockWindow := by
      by_cases h8 : b.seq = 8#4
      · simp [h8]
      · simp only [h8, if_false, hlock, Bool.false_eq_true, and_false, false_or]
        bv_omega
    tmpWidth := captured_lt _ h.tmpWidth }

/-- An acknowledgement keeps BRC's registers legal (R113). -/
theorem BrcInv.acknowledge {c : Config} {b : Brc} (h : BrcInv c b) (hpend : b.busPend = true) (rdata : Nat) :
    BrcInv c (b.acknowledge c rdata) := by
  by_cases hrow : b.seq = 10#4
  · exact h.acknowledge_last hpend hrow rdata
  · exact h.acknowledge_row hpend hrow rdata

/-- The progress of BRC keeps its registers legal (R90, R93, R113). -/
theorem BrcInv.progress {c : Config} {b : Brc} (h : BrcInv c b) (ack : Bool) (rdata : Nat) :
    BrcInv c (b.progress c ack rdata) := by
  obtain ⟨-, hp⟩ | ⟨-, -, hlast, hp⟩ | ⟨-, hop, -, hp⟩ | ⟨hbusy, hop, hpend, hp⟩ | ⟨-, -, hpend, -, hp⟩ |
    ⟨-, -, -, -, hp⟩ := b.progress_cases c ack rdata <;> rw [hp]
  · exact h
  · exact h.count hlast
  · exact h.completeCalc hop 0
  · exact h.issue hbusy hop hpend
  · exact h.acknowledge hpend rdata
  · exact h

/-! ## Commands, resets and steps -/

/-- R5: an accepted configuration has a latency of at least 1. -/
theorem brcLatency_pos_of_accepted {c : Config} (h : configRefusal c = none) : 1 ≤ c.brcLatency := by
  by_contra hlat
  unfold configRefusal at h
  split_ifs at h
  omega

@[simp] theorem flushView_brc (s : State) : s.flushView.brc = s.brc := by
  unfold State.flushView
  split <;> simp

/-- A command of BRC's own port keeps BRC's registers legal, and the commands of the other ports do not touch them. -/
theorem exec_keeps_brcInv {i : Instr} {s t : State} (h : exec i s = .next t) (hlat : 1 ≤ s.cfg.brcLatency)
    (hinv : BrcInv s.cfg s.brc) : BrcInv t.cfg t.brc := by
  obtain ⟨-, rfl⟩ | ⟨f, b, -, rfl⟩ | ⟨-, rfl⟩ | ⟨-, rfl⟩ | ⟨d, -, rfl⟩ | ⟨-, rfl⟩ | ⟨-, -, rfl⟩ | ⟨-, rfl⟩ := exec_next h
  · exact hinv.progress _ _
  · rw [setBrc_cfg, setBrc_brc]
    split
    · exact hinv.progress _ _
    · next hidle => exact hinv.acceptStart (by simpa using hidle) hlat f b
  · rw [setBrc_cfg, setBrc_brc]
    split
    · exact hinv.progress _ _
    · next hidle =>
      split
      · next hcan => exact hinv.acceptApply hcan
      · exact hinv.skipApply (by simpa using hidle)
  · exact hinv
  · split <;> exact hinv
  · exact hinv
  · exact hinv
  · simpa using hinv

/-- Driving the resets leaves BRC's registers as they are or gives them their reset values (R186, R188). -/
theorem applyResets_brc {s t : State} {c w r : Bool} (h : s.applyResets c w r = .next t) :
    t.brc = if c then s.brc else Brc.reset := by
  obtain ⟨-, rfl⟩ := applyResets_next h
  split_ifs <;> simp

/-- Settles O34: a step runs a command, resets a domain or drives the resets, in a state with the registers and the
configuration of `s`, and each of these keeps BRC's registers legal. -/
theorem stepKeepsTheBrcRegistersLegal : Obligations.StepKeepsTheBrcRegistersLegal := by
  intro s t hinv h
  obtain ⟨haccepted, hcases⟩ := step_next h
  obtain ⟨hcfg, hbrc, -⟩ := takeHostStep_frame s
  have hlat := brcLatency_pos_of_accepted haccepted
  rw [← hcfg] at hlat
  rw [← hcfg, ← hbrc] at hinv
  obtain ⟨op, f, b, ack, rdata, i, -, -, -, -, hx⟩ | ⟨op, f, b, ack, rdata, -, -, -, rfl⟩ |
    ⟨w, d, i, -, -, -, hx⟩ | ⟨w, d, -, -, rfl⟩ | ⟨op, d, i, -, -, -, hx⟩ | ⟨op, d, -, -, rfl⟩ | ⟨c, w, r, -, hx⟩ := hcases
  · exact exec_keeps_brcInv hx hlat hinv
  · exact BrcInv.reset _
  · exact exec_keeps_brcInv hx hlat hinv
  · exact hinv
  · exact exec_keeps_brcInv hx hlat hinv
  · exact hinv
  · rw [applyResets_cfg hx, applyResets_brc hx]
    split
    · exact hinv
    · exact BrcInv.reset _

end Sys2Proof.Machine

/-!
PROOFS. The counting facts of ARB that the statements of 20_memory.md rest on: the crossings of 44_cdc_sync.md R151 to R158
edge by edge, the counts of R158 and R159 kept by every operation, and the live bytes read off the counts.
-/
namespace Sys2Proof.Machine

/-! ## The gray code and the stages (R150, R151) -/

theorem gray_shiftRight_one (b : Nat) : gray b >>> 1 = gray (b >>> 1) := Nat.shiftRight_xor_distrib

/-- `bin` undoes `gray` on values of its width (R150). -/
theorem bin_gray {w b : Nat} (h : b < 2 ^ w) : bin w (gray b) = b := by
  induction w generalizing b with
  | zero => exact (Nat.lt_one_iff.mp h).symm
  | succ w ih =>
    have hhalf : b >>> 1 < 2 ^ w := by rw [Nat.shiftRight_one]; omega
    rw [bin, gray_shiftRight_one, ih hhalf]
    exact xor_cancel_right b _

theorem gray_inj {w a b : Nat} (ha : a < 2 ^ w) (hb : b < 2 ^ w) (h : gray a = gray b) : a = b := by
  rw [← bin_gray ha, h, bin_gray hb]

/-- The view of the codes of counts is the code of the view of the counts; where there are no stages both are 0. -/
theorem lastStage_map {f : Nat → Nat} (h0 : f 0 = 0) (q : List Nat) : lastStage (q.map f) = f (lastStage q) := by
  rw [lastStage, lastStage, ← List.getLastD_map (f := f), h0]

theorem lastStage_mem {q : List Nat} (h : q ≠ []) : lastStage q ∈ q := by
  rw [lastStage, List.getLastD_eq_getLast?, List.getLast?_eq_some_getLast h]
  exact List.getLast_mem h

/-- In ordered stages the last one is the least (R156). -/
theorem lastStage_le_of_mem {q : List Nat} (hq : q.Pairwise (· ≥ ·)) {c : Nat} (hc : c ∈ q) : lastStage q ≤ c := by
  rw [lastStage, List.getLastD_eq_getLast?, List.getLast?_eq_some_getLast (List.ne_nil_of_mem hc)]
  exact hq.rel_getLast hc

theorem shiftStages_ordered {q : List Nat} {c : Nat} (hq : q.Pairwise (· ≥ ·)) (hc : ∀ y ∈ q, y ≤ c) :
    (shiftStages c q).Pairwise (· ≥ ·) :=
  (List.pairwise_cons.mpr ⟨hc, hq⟩).sublist (List.take_sublist _ _)

/-- A shift that brings in a count no stage is ahead of does not move the view back (R156). -/
theorem lastStage_le_shiftStages {q : List Nat} {c : Nat} (hq : q.Pairwise (· ≥ ·)) (hc : ∀ y ∈ q, y ≤ c) :
    lastStage q ≤ lastStage (shiftStages c q) := by
  by_cases hne : q = []
  · simp [hne]
  · have hshifted : shiftStages c q ≠ [] :=
      List.ne_nil_of_length_pos (by simpa using List.length_pos_iff.mpr hne)
    obtain hnew | hold := mem_shiftStages (lastStage_mem hshifted)
    · exact (hc _ (lastStage_mem hne)).trans hnew.ge
    · exact lastStage_le_of_mem hq hold

/-! ## One crossing (R152 to R158) -/

section Crossing

variable {pw count prev srcBin srcGray prevGray : Nat} {held stages : List Nat} {chg : Bool}

/-- The destination's view is the code of the oldest count held (R154). -/
theorem Crossing.lastStage_eq (h : Crossing pw count prev held srcBin srcGray chg prevGray stages) :
    lastStage stages = gray (lastStage held % 2 ^ pw) := by
  rw [h.untorn]
  exact lastStage_map (by simp [gray]) held

/-- Decoded, the view is the oldest count held modulo `2^PW` (R128, R136). -/
theorem Crossing.bin_lastStage (h : Crossing pw count prev held srcBin srcGray chg prevGray stages) :
    bin pw (lastStage stages) = lastStage held % 2 ^ pw := by
  rw [h.lastStage_eq, bin_gray (Nat.mod_lt _ (Nat.two_pow_pos pw))]

/-- No view is ahead of its source (R156). -/
theorem Crossing.lastStage_le (h : Crossing pw count prev held srcBin srcGray chg prevGray stages) :
    lastStage held ≤ count := by
  by_cases hne : held = []
  · simp [hne, lastStage]
  · exact (h.notAhead _ (lastStage_mem hne)).trans h.prevLe

/-- A destination edge: the first stage takes a count between the previous and the current one, and the change is covered
(R151, R152, R153). -/
theorem Crossing.capture (h : Crossing pw count prev held srcBin srcGray chg prevGray stages) (d : Draw) :
    ∃ held', held'.length = held.length ∧ lastStage held ≤ lastStage held' ∧
      Crossing pw count count held' srcBin srcGray false prevGray
        (shiftStages (sampled chg srcGray prevGray d) stages) := by
  obtain ⟨c, hprev, hcount, hcode⟩ : ∃ c, prev ≤ c ∧ c ≤ count ∧
      sampled chg srcGray prevGray d = gray (c % 2 ^ pw) := by
    obtain hs | ⟨hchg, hs⟩ := sampled_cases chg srcGray prevGray d
    · exact ⟨count, h.prevLe, le_rfl, hs.trans h.coded⟩
    · exact ⟨prev, le_rfl, h.prevLe, hs.trans (h.changed hchg)⟩
  have hheld : ∀ y ∈ held, y ≤ c := fun y hy => (h.notAhead y hy).trans hprev
  refine ⟨shiftStages c held, shiftStages_length c held, lastStage_le_shiftStages h.ordered hheld, ?_⟩
  exact {
    binary := h.binary
    coded := h.coded
    untorn := by rw [hcode, h.untorn]; exact shiftStages_map (fun y => gray (y % 2 ^ pw)) c held
    prevLe := le_rfl
    unchanged := fun _ => rfl
    changed := nofun
    notAhead := fun y hy => by
      obtain rfl | hold := mem_shiftStages hy
      · exact hcount
      · exact (hheld y hold).trans hcount
    ordered := shiftStages_ordered h.ordered hheld }

/-- The source pointer moves on by less than its modulus: the stages keep what they hold, and where the code changes, the
code before it is marked (R153). -/
theorem Crossing.advance (h : Crossing pw count prev held srcBin srcGray chg prevGray stages) {count' : Nat}
    (hle : count ≤ count') (hlt : count' - count < 2 ^ pw) :
    ∃ prev', Crossing pw count' prev' held (count' % 2 ^ pw) (gray (count' % 2 ^ pw))
      (if gray (count' % 2 ^ pw) = srcGray then chg else true)
      (if gray (count' % 2 ^ pw) = srcGray then prevGray else srcGray) stages := by
  split_ifs with hsame
  · have hp := Nat.two_pow_pos pw
    have hmod : count ≡ count' [MOD 2 ^ pw] :=
      gray_inj (Nat.mod_lt _ hp) (Nat.mod_lt _ hp) (h.coded.symm.trans hsame.symm)
    have hzero := Nat.eq_zero_of_dvd_of_lt ((Nat.modEq_iff_dvd' hle).mp hmod) hlt
    obtain rfl : count = count' := by omega
    exact ⟨prev, { h with binary := rfl, coded := rfl }⟩
  · exact ⟨count, {
      binary := rfl
      coded := rfl
      untorn := h.untorn
      prevLe := hle
      unchanged := nofun
      changed := fun _ => h.coded
      notAhead := fun y hy => (h.notAhead y hy).trans h.prevLe
      ordered := h.ordered }⟩

end Crossing

/-! ## The slots of the counts (R50) -/

/-- The slot of a count modulo `2^PW` is the slot of the count. -/
theorem slotOf_mod_add (c : Config) (p i : Nat) : slotOf c (p % 2 ^ c.pw + i) = slotOf c (p + i) := by
  have hdvd : 2 ^ c.k ∣ 2 ^ c.pw := pow_dvd_pow 2 (Nat.le_succ c.k)
  rw [slotOf, slotOf, Nat.add_mod, Nat.mod_mod_of_dvd _ hdvd, ← Nat.add_mod]

theorem slotOf_mod (c : Config) (p : Nat) : slotOf c (p % 2 ^ c.pw) = slotOf c p := slotOf_mod_add c p 0

theorem slotOf_lt (c : Config) (p : Nat) : slotOf c p < 2 ^ c.k := Nat.mod_lt _ (Nat.two_pow_pos c.k)

/-- Two counts less than `2^k` apart have different slots. -/
theorem slotOf_ne {c : Config} {i j : Nat} (hlt : i < j) (hnear : j - i < 2 ^ c.k) : slotOf c i ≠ slotOf c j := by
  intro heq
  have hzero := Nat.eq_zero_of_dvd_of_lt ((Nat.modEq_iff_dvd' hlt.le).mp heq) hnear
  omega

theorem nextPointer_mod (c : Config) (p : Nat) : nextPointer c (p % 2 ^ c.pw) = (p + 1) % 2 ^ c.pw :=
  Nat.mod_add_mod p (2 ^ c.pw) 1

/-- The bytes of `len` counts from `a` on, oldest first. -/
def countedBytes (c : Config) (m : List Host.Cell) (a len : Nat) : List (Option Byte) :=
  (List.range' a len).map fun i => Memory.read m (slotOf c i)

theorem countedBytes_append (c : Config) (m : List Host.Cell) (a x y : Nat) :
    countedBytes c m a (x + y) = countedBytes c m a x ++ countedBytes c m (a + x) y := by
  simp only [countedBytes, ← List.map_append, List.range'_append_1]

@[simp] theorem countedBytes_one (c : Config) (m : List Host.Cell) (a : Nat) :
    countedBytes c m a 1 = [Memory.read m (slotOf c a)] := rfl

@[simp] theorem countedBytes_length (c : Config) (m : List Host.Cell) (a len : Nat) :
    (countedBytes c m a len).length = len := by simp [countedBytes]

/-- A write to a slot that none of the counts has leaves their bytes. -/
theorem countedBytes_write {c : Config} {m : List Host.Cell} {a len i : Nat} (v : Byte)
    (hi : ∀ x, a ≤ x → x < a + len → slotOf c x ≠ i) :
    countedBytes c (Memory.write m i v) a len = countedBytes c m a len := by
  refine List.map_congr_left fun x hx => ?_
  obtain ⟨hle, hlt⟩ := List.mem_range'_1.mp hx
  rw [Memory.read_write, if_neg (hi x hle hlt)]

/-! ## What the counts say of the levels and of the live bytes (R128, R136, R158, R159) -/

section Counts

variable {s : State} {wc wp : Nat} {wv : List Nat} {rc rp : Nat} {rv : List Nat}

theorem RingCounts.n_ne_zero (h : RingCounts s wc wp wv rc rp rv) : s.cfg.n ≠ 0 := by
  rw [h.capacity]
  exact (Nat.two_pow_pos _).ne'

theorem RingCounts.n_lt (h : RingCounts s wc wp wv rc rp rv) : s.cfg.n < 2 ^ s.cfg.pw := by
  conv_lhs => rw [h.capacity]
  exact Nat.pow_lt_pow_right (by decide) (Nat.lt_succ_self _)

/-- The order of the counts and the views (R158). -/
theorem RingCounts.order (h : RingCounts s wc wp wv rc rp rv) :
    lastStage rv ≤ rc ∧ rc ≤ lastStage wv ∧ lastStage wv ≤ wc ∧ wc ≤ lastStage rv + s.cfg.n :=
  ⟨h.read.lastStage_le, h.readerBehind, h.write.lastStage_le, h.writerBounded⟩

theorem RingCounts.wLevel_eq (h : RingCounts s wc wp wv rc rp rv) : s.wLevel = wc - lastStage rv := by
  obtain ⟨hrv, hrc, hwv, hwc⟩ := h.order
  have hn := h.n_lt
  rw [State.wLevel, if_neg h.n_ne_zero, State.rgrayW, h.read.bin_lastStage, h.write.binary]
  exact subMod_counts (by omega) (by omega)

theorem RingCounts.rLevel_eq (h : RingCounts s wc wp wv rc rp rv) : s.rLevel = lastStage wv - rc := by
  obtain ⟨hrv, hrc, hwv, hwc⟩ := h.order
  have hn := h.n_lt
  rw [State.rLevel, if_neg h.n_ne_zero, State.wgrayR, h.write.bin_lastStage, h.read.binary]
  exact subMod_counts hrc (by omega)

/-- A push is accepted only while the write count is within `N` of the write domain's view (R126). -/
theorem RingCounts.room (h : RingCounts s wc wp wv rc rp rv) (hfull : s.wFull = false) :
    wc + 1 ≤ lastStage rv + s.cfg.n := by
  obtain ⟨hrv, hrc, hwv, hwc⟩ := h.order
  rw [State.wFull, h.wLevel_eq, beq_eq_false_iff_ne] at hfull
  omega

/-- A pop completes only while the read domain's view is ahead of the read count (R138). -/
theorem RingCounts.visible (h : RingCounts s wc wp wv rc rp rv) (hempty : s.rEmpty = false) :
    rc + 1 ≤ lastStage wv := by
  rw [State.rEmpty, h.rLevel_eq, beq_eq_false_iff_ne] at hempty
  omega

theorem RingCounts.writeSlot_eq (h : RingCounts s wc wp wv rc rp rv) : s.writeSlot = slotOf s.cfg wc := by
  rw [State.writeSlot, h.write.binary, slotOf_mod]

theorem RingCounts.readSlot_eq (h : RingCounts s wc wp wv rc rp rv) : s.readSlot = slotOf s.cfg rc := by
  rw [State.readSlot, h.read.binary, slotOf_mod]

/-- The live bytes are those of the counts from the departed to the accepted one (R159). -/
theorem RingCounts.live_eq (h : RingCounts s wc wp wv rc rp rv) :
    s.live = countedBytes s.cfg s.mem rc (wc - rc) := by
  obtain ⟨hrv, hrc, hwv, hwc⟩ := h.order
  have hn := h.n_lt
  have hlen : subMod s.cfg.pw s.wr.wbin s.rd.rbin = wc - rc := by
    rw [h.write.binary, h.read.binary]
    exact subMod_counts (by omega) (by omega)
  rw [State.live, hlen, countedBytes, List.range'_eq_map_range, List.map_map]
  refine List.map_congr_left fun i _ => ?_
  rw [h.read.binary, slotOf_mod_add]
  rfl

/-! ## The counts kept by every operation (R158, R159) -/

/-- An `rclk` edge's shift: the read view moves on or stays (R151, R156). -/
theorem RingCounts.syncR (h : RingCounts s wc wp wv rc rp rv) :
    ∃ wv', lastStage wv ≤ lastStage wv' ∧ RingCounts s.syncR wc wc wv' rc rp rv := by
  obtain ⟨wv', hlen, hview, hwrite⟩ := h.write.capture s.ports.drawW
  exact ⟨wv', hview, {
    capacity := h.capacity
    depth := h.depth
    stagesR := hlen.trans h.stagesR
    stagesW := h.stagesW
    write := hwrite
    read := h.read
    readerBehind := h.readerBehind.trans hview
    writerBounded := h.writerBounded
    stored := h.stored
    inRing := h.inRing }⟩

/-- A `wclk` edge's shift: the write view moves on or stays (R151, R156). -/
theorem RingCounts.syncW (h : RingCounts s wc wp wv rc rp rv) :
    ∃ rv', lastStage rv ≤ lastStage rv' ∧ RingCounts s.syncW wc wp wv rc rc rv' := by
  obtain ⟨rv', hlen, hview, hread⟩ := h.read.capture s.ports.drawR
  exact ⟨rv', hview, {
    capacity := h.capacity
    depth := h.depth
    stagesR := h.stagesR
    stagesW := hlen.trans h.stagesW
    write := h.write
    read := hread
    readerBehind := h.readerBehind
    writerBounded := h.writerBounded.trans (Nat.add_le_add_right hview _)
    stored := h.stored
    inRing := h.inRing }⟩

/-- An accepted push counts one byte more, at a slot of its own (R126, R158). -/
theorem RingCounts.acceptPush (h : RingCounts s wc wp wv rc rp rv) (hfull : s.wFull = false) (d : Byte) :
    ∃ wp', RingCounts (s.acceptPush d) (wc + 1) wp' wv rc rp rv := by
  have hn := h.n_lt
  have hpos := Nat.pos_of_ne_zero h.n_ne_zero
  obtain ⟨wp', hwrite⟩ := h.write.advance (Nat.le_succ wc) (by omega)
  rw [← nextPointer_mod, ← h.write.binary] at hwrite
  exact ⟨wp', {
    capacity := h.capacity
    depth := h.depth
    stagesR := h.stagesR
    stagesW := h.stagesW
    write := by simpa [apply_ite Sampling.wChg, apply_ite Sampling.wPrev] using hwrite
    read := by simpa [apply_ite Sampling.rChg, apply_ite Sampling.rPrev] using h.read
    readerBehind := h.readerBehind
    writerBounded := h.room hfull
    stored := fun c hrc hwc => by
      rw [acceptPush_read, acceptPush_cfg]
      split
      · rfl
      · next hslot =>
        have hother : c ≠ wc := by
          rintro rfl
          exact hslot h.writeSlot_eq.symm
        exact h.stored c hrc (by omega)
    inRing := fun cell hcell => by
      obtain rfl | hold := Memory.mem_write hcell
      · exact (slotOf_lt s.cfg s.wr.wbin).trans_eq h.capacity.symm
      · exact h.inRing cell hold }⟩

/-- The read pointer moves to a count that its view has reached: a pop or a flush (R138, R140). -/
theorem RingCounts.moveRead (h : RingCounts s wc wp wv rc rp rv) {m : Nat} (hle : rc ≤ m) (hm : m ≤ lastStage wv) :
    ∃ rp', RingCounts (s.moveRead (m % 2 ^ s.cfg.pw) (gray (m % 2 ^ s.cfg.pw))) wc wp wv m rp' rv := by
  obtain ⟨hrv, hrc, hwv, hwc⟩ := h.order
  have hn := h.n_lt
  obtain ⟨rp', hread⟩ := h.read.advance hle (by omega)
  exact ⟨rp', {
    capacity := h.capacity
    depth := h.depth
    stagesR := h.stagesR
    stagesW := h.stagesW
    write := by simpa [apply_ite Sampling.wChg, apply_ite Sampling.wPrev] using h.write
    read := by simpa [apply_ite Sampling.rChg, apply_ite Sampling.rPrev] using hread
    readerBehind := hm
    writerBounded := h.writerBounded
    stored := fun c hc => h.stored c (hle.trans hc)
    inRing := h.inRing }⟩

end Counts

end Sys2Proof.Machine

/-!
PROOFS. The statements of 20_memory.md: every command is a step of a FIFO queue and so is every run (R62, R63), RING's
canonical form (R50), and the separation of BRC from ARB and of the domains (R65).
-/
namespace Sys2Proof.Machine

/-! ## What commands leave unchanged (R65, R133, R147) -/

section Flush

variable (s : State)

@[simp] theorem flushView_wr : s.flushView.wr = s.wr := by simp [State.flushView, apply_ite State.wr]
@[simp] theorem flushView_mem : s.flushView.mem = s.mem := by simp [State.flushView, apply_ite State.mem]
@[simp] theorem flushView_popped : s.flushView.popped = s.popped := by simp [State.flushView, apply_ite State.popped]
@[simp] theorem flushView_ports : s.flushView.ports = s.ports := by simp [State.flushView, apply_ite State.ports]
@[simp] theorem flushView_script : s.flushView.script = s.script := by simp [State.flushView, apply_ite State.script]
@[simp] theorem flushView_tick : s.flushView.tick = s.tick := by simp [State.flushView, apply_ite State.tick]

end Flush

/-- Settles O59: each command's next state is built from the updates of its own domain's fields. -/
theorem commandsStayInTheirDomain : Obligations.CommandsStayInTheirDomain := by
  intro s t i h
  obtain ⟨rfl, rfl⟩ | ⟨f, b, rfl, rfl⟩ | ⟨rfl, rfl⟩ | ⟨rfl, rfl⟩ | ⟨d, rfl, rfl⟩ | ⟨rfl, rfl⟩ | ⟨rfl, -, rfl⟩ |
    ⟨rfl, rfl⟩ := exec_next h
  case inr.inr.inr.inr.inl =>
    split <;> simp [Instr.domain]
  all_goals simp [Instr.domain]

/-- No command changes the input ports. -/
theorem exec_ports {i : Instr} {s t : State} (h : exec i s = .next t) : t.ports = s.ports := by
  obtain ⟨-, hports, -⟩ := commandsStayInTheirDomain s t i h
  exact hports

/-! ## RING's canonical form (R50, R51) -/

/-- A command writes at most one byte of RING, and only a push does (R126). -/
theorem exec_mem {i : Instr} {s t : State} (h : exec i s = .next t) :
    t.mem = s.mem ∨ ∃ d, t.mem = Memory.write s.mem s.writeSlot d := by
  obtain ⟨-, rfl⟩ | ⟨f, b, -, rfl⟩ | ⟨-, rfl⟩ | ⟨-, rfl⟩ | ⟨d, -, rfl⟩ | ⟨-, rfl⟩ | ⟨-, -, rfl⟩ | ⟨-, rfl⟩ := exec_next h
  case inr.inr.inr.inr.inl =>
    split
    · exact .inl rfl
    · exact .inr ⟨d, rfl⟩
  all_goals exact .inl (by simp)

theorem exec_keeps_wf {i : Instr} {s t : State} (h : exec i s = .next t) (hwf : Memory.wf s.mem = true) :
    Memory.wf t.mem = true := by
  obtain hm | ⟨d, hm⟩ := exec_mem h <;> rw [hm]
  · exact hwf
  · exact Memory.wf_write _ d hwf

/-- Driving the resets keeps RING or, with the ARB resets asserted, empties it (R185, R187, R188). -/
theorem applyResets_mem {s t : State} {c w r : Bool} (h : s.applyResets c w r = .next t) :
    t.mem = if w then s.mem else [] := by
  obtain ⟨-, rfl⟩ := applyResets_next h
  split_ifs <;> simp

/-- Settles O54: a step runs a command, which writes at most one byte, or keeps RING, or empties it. -/
theorem stepKeepsTheRingStorageCanonical : Obligations.StepKeepsTheRingStorageCanonical := by
  intro s t hwf h
  obtain ⟨-, -, -, -, hmem, -⟩ := takeHostStep_frame s
  rw [← hmem] at hwf
  obtain ⟨-, ⟨op, f, b, ack, rdata, i, -, -, -, -, hx⟩ | ⟨op, f, b, ack, rdata, -, -, -, rfl⟩ |
    ⟨w, d, i, -, -, -, hx⟩ | ⟨w, d, -, -, rfl⟩ | ⟨op, d, i, -, -, -, hx⟩ | ⟨op, d, -, -, rfl⟩ | ⟨c, w, r, -, hx⟩⟩ :=
    step_next h
  · exact exec_keeps_wf hx hwf
  · exact hwf
  · exact exec_keeps_wf hx hwf
  · rfl
  · exact exec_keeps_wf hx hwf
  · rfl
  · rw [applyResets_mem hx]
    split
    · exact hwf
    · rfl

/-! ## States that agree on ARB (R65) -/

/-- Two states with the same configuration and the same registers of ARB and RING. -/
structure AgreeOnArb (s t : State) : Prop where
  cfg : s.cfg = t.cfg
  wr : s.wr = t.wr
  rd : s.rd = t.rd
  mem : s.mem = t.mem
  sampling : s.sampling = t.sampling

namespace AgreeOnArb

variable {s t : State}

theorem of_setBrc (s : State) (b : Brc) : AgreeOnArb s (s.setBrc b) := ⟨rfl, rfl, rfl, rfl, rfl⟩

theorem of_setPopped (s : State) (v : Option Byte) : AgreeOnArb s (s.setPopped v) := ⟨rfl, rfl, rfl, rfl, rfl⟩

theorem wFull_eq (e : AgreeOnArb s t) : s.wFull = t.wFull := by
  simp only [State.wFull, State.wLevel, State.rgrayW, e.cfg, e.wr]

theorem rLevel_eq (e : AgreeOnArb s t) : s.rLevel = t.rLevel := by
  simp only [State.rLevel, State.wgrayR, e.cfg, e.rd]

theorem rEmpty_eq (e : AgreeOnArb s t) : s.rEmpty = t.rEmpty := by
  simp only [State.rEmpty, e.rLevel_eq]

theorem rData_eq (e : AgreeOnArb s t) : s.rData = t.rData := by
  simp only [State.rData, State.readSlot, e.rEmpty_eq, e.cfg, e.rd, e.mem]

theorem live_eq (e : AgreeOnArb s t) : s.live = t.live := by
  simp only [State.live, e.cfg, e.wr, e.rd, e.mem]

theorem acceptedBy_eq (e : AgreeOnArb s t) (i : Instr) : s.acceptedBy i = t.acceptedBy i := by
  cases i <;> simp [State.acceptedBy, e.wFull_eq]

theorem leavingBy_eq (e : AgreeOnArb s t) (i : Instr) : s.leavingBy i = t.leavingBy i := by
  cases i <;> simp [State.leavingBy, e.rEmpty_eq, e.rData_eq, e.live_eq, e.rLevel_eq]

theorem ringCounts (e : AgreeOnArb s t) {wc wp : Nat} {wv : List Nat} {rc rp : Nat} {rv : List Nat}
    (h : RingCounts s wc wp wv rc rp rv) : RingCounts t wc wp wv rc rp rv := by
  obtain ⟨hcfg, hwr, hrd, hmem, hsampling⟩ := e
  obtain ⟨capacity, depth, stagesR, stagesW, write, read, behind, bounded, stored, inRing⟩ := h
  rw [hcfg] at capacity depth stagesR stagesW write read bounded stored inRing
  rw [hwr] at write read
  rw [hrd] at write read
  rw [hsampling] at write read
  rw [hmem] at stored inRing
  exact ⟨capacity, depth, stagesR, stagesW, write, read, behind, bounded, stored, inRing⟩

theorem ringInv (e : AgreeOnArb s t) (h : RingInv s) : RingInv t := by
  unfold RingInv at h ⊢
  split at h
  · next hn => rwa [if_pos (e.cfg ▸ hn), ← e.wr, ← e.rd, ← e.mem, ← e.sampling, ← e.cfg]
  · next hn =>
    rw [if_neg (e.cfg ▸ hn)]
    obtain ⟨wc, wp, wv, rc, rp, rv, h⟩ := h
    exact ⟨wc, wp, wv, rc, rp, rv, e.ringCounts h⟩

theorem syncW (e : AgreeOnArb s t) (hd : s.ports.drawR = t.ports.drawR) : AgreeOnArb s.syncW t.syncW where
  cfg := e.cfg
  wr := by simp [State.sampleR, e.wr, e.rd, e.sampling, hd]
  rd := e.rd
  mem := e.mem
  sampling := by simp [e.sampling]

theorem syncR (e : AgreeOnArb s t) (hd : s.ports.drawW = t.ports.drawW) : AgreeOnArb s.syncR t.syncR where
  cfg := e.cfg
  wr := e.wr
  rd := by simp [State.sampleW, e.wr, e.rd, e.sampling, hd]
  mem := e.mem
  sampling := by simp [e.sampling]

theorem acceptPush (e : AgreeOnArb s t) (d : Byte) : AgreeOnArb (s.acceptPush d) (t.acceptPush d) where
  cfg := e.cfg
  wr := by simp [e.cfg, e.wr]
  rd := e.rd
  mem := by simp [State.writeSlot, e.cfg, e.wr, e.mem]
  sampling := by simp [e.cfg, e.wr, e.sampling]

theorem moveRead (e : AgreeOnArb s t) (b g : Nat) : AgreeOnArb (s.moveRead b g) (t.moveRead b g) where
  cfg := e.cfg
  wr := e.wr
  rd := by simp [e.rd]
  mem := e.mem
  sampling := by simp [e.rd, e.sampling]

theorem popOne (e : AgreeOnArb s t) : AgreeOnArb s.popOne t.popOne where
  cfg := e.cfg
  wr := e.wr
  rd := by simp [e.cfg, e.rd]
  mem := e.mem
  sampling := by simp [e.cfg, e.rd, e.sampling]

theorem flushView (e : AgreeOnArb s t) : AgreeOnArb s.flushView t.flushView := by
  by_cases hn : s.cfg.n = 0
  · rwa [flushView_zero hn, flushView_zero (e.cfg ▸ hn)]
  · have hview : s.wgrayR = t.wgrayR := by simp only [State.wgrayR, e.rd]
    rw [flushView_ring hn, flushView_ring (e.cfg ▸ hn), ← e.cfg, ← hview]
    exact e.moveRead _ _

end AgreeOnArb

/-! ## The two units apart (R65, R182) -/

/-- BRC's progress is a function of its registers, the bus responses and the configuration (R65). -/
theorem brcProgress_congr {s t : State} (hcfg : s.cfg = t.cfg) (hbrc : s.brc = t.brc)
    (hack : s.ports.busAck = t.ports.busAck) (hrdata : s.ports.busRdata = t.ports.busRdata) :
    s.brcProgress = t.brcProgress := by
  simp only [State.brcProgress, hcfg, hbrc, hack, hrdata]

/-- A command of BRC's port completes, with registers that are a function of BRC's own, the bus responses and the
configuration (R65). -/
theorem exec_brc_congr {s t : State} {i : Instr} (hi : i.domain = .brc) (hcfg : s.cfg = t.cfg) (hbrc : s.brc = t.brc)
    (hack : s.ports.busAck = t.ports.busAck) (hrdata : s.ports.busRdata = t.ports.busRdata) :
    ∃ s' t', exec i s = .next s' ∧ exec i t = .next t' ∧ s'.brc = t'.brc := by
  have hprogress := brcProgress_congr hcfg hbrc hack hrdata
  cases i with
  | brcNop => exact ⟨_, _, rfl, rfl, hprogress⟩
  | brcStart f b => exact ⟨_, _, rfl, rfl, by simp only [setBrc_brc, hprogress, hcfg, hbrc]⟩
  | brcApply => exact ⟨_, _, rfl, rfl, by simp only [setBrc_brc, hprogress, hbrc]⟩
  | wNop | wPush _ | rNop | rPop | rFlush => cases hi

/-- A command of an ARB port has the same outcome in states that agree on ARB and the draws: the same next registers and
returned byte, or the same fault (R65, R182). -/
theorem exec_arb_congr {s t : State} {i : Instr} (hi : i.domain ≠ .brc) (e : AgreeOnArb s t)
    (hdrawW : s.ports.drawW = t.ports.drawW) (hdrawR : s.ports.drawR = t.ports.drawR) :
    (∃ s' t', exec i s = .next s' ∧ exec i t = .next t' ∧ AgreeOnArb s' t' ∧
      (i = .rPop ∨ s.popped = t.popped → s'.popped = t'.popped)) ∨
    ∃ r, exec i s = .fault r ∧ exec i t = .fault r := by
  cases i with
  | brcNop | brcStart _ _ | brcApply => exact absurd rfl hi
  | wNop => exact .inl ⟨_, _, rfl, rfl, e.syncW hdrawR, by simp⟩
  | wPush d =>
    refine .inl ⟨_, _, rfl, rfl, ?_⟩
    rw [← e.wFull_eq]
    split
    · exact ⟨e.syncW hdrawR, by simp⟩
    · exact ⟨(e.acceptPush d).syncW hdrawR, by simp⟩
  | rNop => exact .inl ⟨_, _, rfl, rfl, e.syncR hdrawW, by simp⟩
  | rPop =>
    have hempty := e.rEmpty_eq
    cases hs : s.rEmpty with
    | true => exact .inr ⟨.popEmpty .read s.rd.rbin, by simp [exec, execRPop, hs],
        by simp [exec, execRPop, ← hempty, hs, e.rd]⟩
    | false => exact .inl ⟨s.popOne.syncR, t.popOne.syncR, by simp [exec, execRPop, hs],
        by simp [exec, execRPop, ← hempty, hs], e.popOne.syncR hdrawW, fun _ => e.rData_eq⟩
  | rFlush => exact .inl ⟨_, _, rfl, rfl, e.flushView.syncR (by simpa using hdrawW), by simp⟩

/-- Settles O60: each unit's outcome is read off the registers and ports the two states agree on. -/
theorem unitsDoNotInfluenceEachOther : Obligations.UnitsDoNotInfluenceEachOther := by
  intro s₁ s₂ i hcfg
  refine ⟨fun hi hbrc hack hrdata => exec_brc_congr hi hcfg hbrc hack hrdata,
    fun hi hwr hrd hmem hsampling hdrawW hdrawR => ?_⟩
  refine (exec_arb_congr hi ⟨hcfg, hwr, hrd, hmem, hsampling⟩ hdrawW hdrawR).imp_left ?_
  rintro ⟨t₁, t₂, h₁, h₂, e, hpopped⟩
  exact ⟨t₁, t₂, h₁, h₂, e.wr, e.rd, e.mem, e.sampling, hpopped⟩

/-! ## Every command as a step of a queue (R62, R63) -/

section Queue

variable {s t : State} {wc wp : Nat} {wv : List Nat} {rc rp : Nat} {rv : List Nat}

/-- A flush moves the read count to the view's (R140). -/
theorem RingCounts.flushView_eq (h : RingCounts s wc wp wv rc rp rv) :
    s.flushView = s.moveRead (lastStage wv % 2 ^ s.cfg.pw) (gray (lastStage wv % 2 ^ s.cfg.pw)) := by
  rw [flushView_ring h.n_ne_zero, State.wgrayR, h.write.bin_lastStage, h.write.lastStage_eq]

/-- A pop moves the read count by one and returns a byte (R138). -/
theorem RingCounts.popOne_eq (h : RingCounts s wc wp wv rc rp rv) :
    s.popOne = (s.moveRead ((rc + 1) % 2 ^ s.cfg.pw) (gray ((rc + 1) % 2 ^ s.cfg.pw))).setPopped s.rData := by
  rw [State.popOne, h.read.binary, nextPointer_mod]
  rfl

theorem RingCounts.flushView (h : RingCounts s wc wp wv rc rp rv) :
    ∃ rp', RingCounts s.flushView wc wp wv (lastStage wv) rp' rv := by
  rw [h.flushView_eq]
  exact h.moveRead h.readerBehind le_rfl

theorem RingCounts.popOne (h : RingCounts s wc wp wv rc rp rv) (hempty : s.rEmpty = false) :
    ∃ rp', RingCounts s.popOne wc wp wv (rc + 1) rp' rv := by
  rw [h.popOne_eq]
  obtain ⟨rp', h'⟩ := h.moveRead (Nat.le_succ rc) (h.visible hempty)
  exact ⟨rp', (AgreeOnArb.of_setPopped _ _).ringCounts h'⟩

/-- The popped byte is that of the oldest live count (R138). -/
theorem RingCounts.leavingBy_rPop (h : RingCounts s wc wp wv rc rp rv) (hempty : s.rEmpty = false) :
    s.leavingBy .rPop = countedBytes s.cfg s.mem rc 1 := by
  simp [State.leavingBy, State.rData, hempty, h.readSlot_eq]

/-- The flushed bytes are those the read domain sees (R141). -/
theorem RingCounts.leavingBy_rFlush (h : RingCounts s wc wp wv rc rp rv) :
    s.leavingBy .rFlush = countedBytes s.cfg s.mem rc (lastStage wv - rc) := by
  obtain ⟨-, hrc, hwv, -⟩ := h.order
  have hlen : wc - rc = (lastStage wv - rc) + (wc - lastStage wv) := by omega
  rw [State.leavingBy, h.live_eq, h.rLevel_eq, hlen, countedBytes_append]
  exact List.take_left' (countedBytes_length _ _ _ _)

/-- The counts move by the accepted and the leaving bytes, and no view moves back (R156, R158). -/
theorem RingCounts.of_exec (h : RingCounts s wc wp wv rc rp rv) {i : Instr} (hx : exec i s = .next t) :
    ∃ wp' wv' rp' rv', lastStage wv ≤ lastStage wv' ∧ lastStage rv ≤ lastStage rv' ∧
      RingCounts t (wc + (s.acceptedBy i).length) wp' wv' (rc + (s.leavingBy i).length) rp' rv' := by
  have hbrc (b : Brc) : RingCounts (s.setBrc b) wc wp wv rc rp rv := (AgreeOnArb.of_setBrc s b).ringCounts h
  obtain ⟨rfl, rfl⟩ | ⟨f, b, rfl, rfl⟩ | ⟨rfl, rfl⟩ | ⟨rfl, rfl⟩ | ⟨d, rfl, rfl⟩ | ⟨rfl, rfl⟩ | ⟨rfl, hempty, rfl⟩ |
    ⟨rfl, rfl⟩ := exec_next hx
  · exact ⟨wp, wv, rp, rv, le_rfl, le_rfl, hbrc _⟩
  · exact ⟨wp, wv, rp, rv, le_rfl, le_rfl, hbrc _⟩
  · exact ⟨wp, wv, rp, rv, le_rfl, le_rfl, hbrc _⟩
  · obtain ⟨rv', hview, h'⟩ := h.syncW
    exact ⟨wp, wv, rc, rv', le_rfl, hview, h'⟩
  · cases hfull : s.wFull with
    | true =>
      obtain ⟨rv', hview, h'⟩ := h.syncW
      exact ⟨wp, wv, rc, rv', le_rfl, hview, by simpa [State.acceptedBy, State.leavingBy, hfull] using h'⟩
    | false =>
      obtain ⟨wp', hpush⟩ := h.acceptPush hfull d
      obtain ⟨rv', hview, h'⟩ := hpush.syncW
      exact ⟨wp', wv, rc, rv', le_rfl, hview, by simpa [State.acceptedBy, State.leavingBy, hfull] using h'⟩
  · obtain ⟨wv', hview, h'⟩ := h.syncR
    exact ⟨wc, wv', rp, rv, hview, le_rfl, h'⟩
  · obtain ⟨rp', hpop⟩ := h.popOne hempty
    obtain ⟨wv', hview, h'⟩ := hpop.syncR
    exact ⟨wc, wv', rp', rv, hview, le_rfl, by rwa [h.leavingBy_rPop hempty, countedBytes_length]⟩
  · obtain ⟨rp', hflush⟩ := h.flushView
    obtain ⟨wv', hview, h'⟩ := hflush.syncR
    refine ⟨wc, wv', rp', rv, hview, le_rfl, ?_⟩
    rw [h.leavingBy_rFlush, countedBytes_length, Nat.add_sub_cancel' h.readerBehind]
    exact h'

/-- A move of the read count takes the bytes of the counts it passes from the front of the live ones. -/
theorem RingCounts.live_split (h : RingCounts s wc wp wv rc rp rv) {m : Nat} {rp' : Nat}
    (h' : RingCounts t wc wp wv m rp' rv) (hle : rc ≤ m) (hcfg : t.cfg = s.cfg) (hmem : t.mem = s.mem) :
    s.live = countedBytes s.cfg s.mem rc (m - rc) ++ t.live := by
  obtain ⟨-, hm, hwv, -⟩ := h'.order
  have hlen : wc - rc = (m - rc) + (wc - m) := by omega
  rw [h.live_eq, h'.live_eq, hcfg, hmem, hlen, countedBytes_append, Nat.add_sub_cancel' hle]

/-- An accepted push puts its byte behind the live ones (R126). -/
theorem RingCounts.live_acceptPush (h : RingCounts s wc wp wv rc rp rv) (hfull : s.wFull = false) (d : Byte) :
    (s.acceptPush d).live = s.live ++ [some d] := by
  obtain ⟨wp', h'⟩ := h.acceptPush hfull d
  obtain ⟨hrv, hrc, hwv, -⟩ := h.order
  have hroom := h.room hfull
  rw [h.capacity] at hroom
  have hlen : wc + 1 - rc = (wc - rc) + 1 := by omega
  have hend : rc + (wc - rc) = wc := by omega
  rw [h'.live_eq, h.live_eq, acceptPush_cfg, acceptPush_mem, h.writeSlot_eq, hlen, countedBytes_append, hend,
    countedBytes_write d fun x hx hlt => slotOf_ne (by omega) (by omega), countedBytes_one, Memory.read_write, if_pos rfl]

/-- With counts, a command takes the leaving bytes from the front of the live ones and puts the accepted one behind them. -/
theorem RingCounts.exec_queue_step (h : RingCounts s wc wp wv rc rp rv) {i : Instr} (hx : exec i s = .next t) :
    s.live ++ s.acceptedBy i = s.leavingBy i ++ t.live := by
  obtain ⟨rfl, rfl⟩ | ⟨f, b, rfl, rfl⟩ | ⟨rfl, rfl⟩ | ⟨rfl, rfl⟩ | ⟨d, rfl, rfl⟩ | ⟨rfl, rfl⟩ | ⟨rfl, hempty, rfl⟩ |
    ⟨rfl, rfl⟩ := exec_next hx
  · exact List.append_nil s.live
  · exact List.append_nil s.live
  · exact List.append_nil s.live
  · exact List.append_nil s.live
  · cases hfull : s.wFull with
    | true =>
      rw [State.acceptedBy, if_pos hfull]
      exact List.append_nil s.live
    | false =>
      rw [State.acceptedBy, if_neg (by simp [hfull])]
      exact (h.live_acceptPush hfull d).symm
  · exact List.append_nil s.live
  · obtain ⟨rp', hpop⟩ := h.popOne hempty
    rw [h.leavingBy_rPop hempty]
    have hsplit := h.live_split hpop (Nat.le_succ rc) rfl rfl
    rw [Nat.add_sub_cancel_left] at hsplit
    exact (List.append_nil s.live).trans hsplit
  · obtain ⟨rp', hflush⟩ := h.flushView
    rw [h.leavingBy_rFlush]
    have hsplit := h.live_split hflush h.readerBehind (flushView_cfg s) (flushView_mem s)
    exact (List.append_nil s.live).trans hsplit

end Queue

/-! ## The ring invariant as counts or as no ring -/

theorem RingCounts.ringInv {s : State} {wc wp : Nat} {wv : List Nat} {rc rp : Nat} {rv : List Nat}
    (h : RingCounts s wc wp wv rc rp rv) : RingInv s := by
  rw [RingInv, if_neg h.n_ne_zero]
  exact ⟨wc, wp, wv, rc, rp, rv, h⟩

theorem RingInv.cases {s : State} (h : RingInv s) :
    (s.cfg.n = 0 ∧ s.wr = WriteDomain.reset s.cfg ∧ s.rd = ReadDomain.reset s.cfg ∧ s.sampling = Sampling.reset) ∨
    ∃ wc wp wv rc rp rv, RingCounts s wc wp wv rc rp rv := by
  unfold RingInv at h
  split at h
  · next hn =>
    obtain ⟨hwr, hrd, -, hsampling⟩ := h
    exact .inl ⟨hn, hwr, hrd, hsampling⟩
  · exact .inr h

/-- With `N = 0` a command changes nothing of ARB, accepts no byte and lets none leave (R146). -/
theorem exec_of_zero {s t : State} {i : Instr} (hn : s.cfg.n = 0) (hwr : s.wr = WriteDomain.reset s.cfg)
    (hrd : s.rd = ReadDomain.reset s.cfg) (hsampling : s.sampling = Sampling.reset) (hx : exec i s = .next t) :
    AgreeOnArb s t ∧ s.acceptedBy i = [] ∧ s.leavingBy i = [] := by
  have hsyncW : AgreeOnArb s s.syncW :=
    ⟨rfl, by simp [hwr, WriteDomain.reset, stageCount, hn], rfl, rfl, by simp [hsampling, Sampling.reset]⟩
  have hsyncR : AgreeOnArb s s.syncR :=
    ⟨rfl, rfl, by simp [hrd, ReadDomain.reset, stageCount, hn], rfl, by simp [hsampling, Sampling.reset]⟩
  obtain ⟨rfl, rfl⟩ | ⟨f, b, rfl, rfl⟩ | ⟨rfl, rfl⟩ | ⟨rfl, rfl⟩ | ⟨d, rfl, rfl⟩ | ⟨rfl, rfl⟩ | ⟨rfl, hempty, rfl⟩ |
    ⟨rfl, rfl⟩ := exec_next hx
  · exact ⟨.of_setBrc s _, rfl, rfl⟩
  · exact ⟨.of_setBrc s _, rfl, rfl⟩
  · exact ⟨.of_setBrc s _, rfl, rfl⟩
  · exact ⟨hsyncW, rfl, rfl⟩
  · simp only [State.acceptedBy, State.leavingBy, wFull_of_zero hn, if_true, and_true]
    exact hsyncW
  · exact ⟨hsyncR, rfl, rfl⟩
  · cases (rEmpty_of_zero hn).symm.trans hempty
  · rw [flushView_zero hn]
    exact ⟨hsyncR, rfl, by simp [State.leavingBy, State.rLevel, hn]⟩

/-- Settles O50: with `N = 0` nothing moves; with counts, an accepted push adds the byte of the next count and a pop or
flush takes those of the counts it passes. -/
theorem everyCommandIsAQueueStep : Obligations.EveryCommandIsAQueueStep := by
  intro s t i hinv hx
  obtain ⟨hn, hwr, hrd, hsampling⟩ | ⟨wc, wp, wv, rc, rp, rv, h⟩ := hinv.cases
  · obtain ⟨hagree, haccepted, hleaving⟩ := exec_of_zero hn hwr hrd hsampling hx
    rw [haccepted, hleaving, hagree.live_eq]
    exact List.append_nil t.live
  · exact h.exec_queue_step hx

/-! ## Runs (R63) -/

/-- The ring invariant is kept by every command (R158, R159). -/
theorem exec_keeps_ringInv {s t : State} {i : Instr} (hinv : RingInv s) (hx : exec i s = .next t) : RingInv t := by
  obtain ⟨hn, hwr, hrd, hsampling⟩ | ⟨wc, wp, wv, rc, rp, rv, h⟩ := hinv.cases
  · obtain ⟨hagree, -, -⟩ := exec_of_zero hn hwr hrd hsampling hx
    exact hagree.ringInv hinv
  · obtain ⟨wp', wv', rp', rv', -, -, h'⟩ := h.of_exec hx
    exact h'.ringInv

/-- ARB out of reset and as its invariant says: what a run keeps that never drives the ARB resets to 0. -/
structure RingRuns (s : State) : Prop where
  inv : RingInv s
  wrstN : s.ports.wrstN = true
  rrstN : s.ports.rrstN = true

theorem bytesOf_of_decode (s : State) (f : State → Instr → List (Option Byte)) {e : HostStep} {w : CmdWord} {i : Instr}
    (hw : e.word = some w) (hi : decode w = .ok i) : s.bytesOf f e = f s i := by
  simp only [State.bytesOf, hw, hi]

/-- An edge that samples a command is a step of the queue; the ports it drives hold the reset levels (R8, R62). -/
theorem RingRuns.exec_queue_step {s t : State} {p : Ports} {i : Instr} {e : HostStep} {w : CmdWord} (h : RingRuns s)
    (hx : exec i ((s.setScript []).setPorts p) = .next t) (hw : e.word = some w) (hi : decode w = .ok i)
    (hwrst : p.wrstN = s.ports.wrstN) (hrrst : p.rrstN = s.ports.rrstN) :
    RingRuns t ∧ s.live ++ s.bytesOf State.acceptedBy e = s.bytesOf State.leavingBy e ++ t.live := by
  have hagree : AgreeOnArb s ((s.setScript []).setPorts p) := ⟨rfl, rfl, rfl, rfl, rfl⟩
  have hinv := hagree.ringInv h.inv
  have hports : t.ports = p := exec_ports hx
  constructor
  · exact ⟨exec_keeps_ringInv hinv hx, by rw [hports, hwrst, h.wrstN], by rw [hports, hrrst, h.rrstN]⟩
  · rw [bytesOf_of_decode s _ hw hi, bytesOf_of_decode s _ hw hi, hagree.live_eq, hagree.acceptedBy_eq,
      hagree.leavingBy_eq]
    exact everyCommandIsAQueueStep _ t i hinv hx

/-- A word of BRC's port accepts no byte and lets none leave (R65). -/
theorem bytesOf_cclk (s : State) (op : BitVec 2) (f b : Word32) (ack : Bool) (rdata : Nat) :
    s.bytesOf State.acceptedBy (.cclk op f b ack rdata) = [] ∧
    s.bytesOf State.leavingBy (.cclk op f b ack rdata) = [] := by
  simp only [State.bytesOf, HostStep.word, decode, decodeBrccmd]
  split_ifs <;> exact ⟨rfl, rfl⟩

/-- With both ARB resets released, driving the resets leaves ARB as it is (R187, R188). -/
theorem applyResets_released {s t : State} {c : Bool} (h : s.applyResets c true true = .next t) :
    AgreeOnArb s t ∧ t.ports.wrstN = true ∧ t.ports.rrstN = true := by
  cases c <;> cases h <;> exact ⟨⟨rfl, rfl, rfl, rfl, rfl⟩, rfl, rfl⟩

/-- A step that does not drive the ARB resets to 0 is a step of the queue (R62, R63). -/
theorem RingRuns.step_queue_step {s t : State} {e : HostStep} (h : RingRuns s)
    (hreset : ∀ c w r, e = .resets c w r → w = true ∧ r = true) (hs : step (s.setScript [e]) = .next t) :
    RingRuns t ∧ s.live ++ s.bytesOf State.acceptedBy e = s.bytesOf State.leavingBy e ++ t.live := by
  have htake : (s.setScript [e]).takeHostStep = (e, s.setScript []) := rfl
  obtain ⟨-, hcases⟩ := step_next hs
  rw [htake] at hcases
  obtain ⟨op, f, b, ack, rdata, i, rfl, -, -, hi, hx⟩ | ⟨op, f, b, ack, rdata, rfl, -, -, rfl⟩ |
    ⟨w, d, i, rfl, -, hi, hx⟩ | ⟨w, d, -, hlow, -⟩ | ⟨op, d, i, rfl, -, hi, hx⟩ | ⟨op, d, -, hlow, -⟩ |
    ⟨c, w, r, rfl, hx⟩ := hcases
  · exact h.exec_queue_step hx rfl hi rfl rfl
  · have hagree : AgreeOnArb s ((s.setScript []).driveBus ack rdata).resetBrc := ⟨rfl, rfl, rfl, rfl, rfl⟩
    obtain ⟨haccepted, hleaving⟩ := bytesOf_cclk s op f b ack rdata
    rw [haccepted, hleaving, hagree.live_eq]
    exact ⟨⟨hagree.ringInv h.inv, h.wrstN, h.rrstN⟩, List.append_nil _⟩
  · exact h.exec_queue_step hx rfl hi rfl rfl
  · cases hlow.symm.trans h.wrstN
  · exact h.exec_queue_step hx rfl hi rfl rfl
  · cases hlow.symm.trans h.rrstN
  · obtain ⟨rfl, rfl⟩ := hreset c w r rfl
    obtain ⟨hdriven, hwrst, hrrst⟩ := applyResets_released hx
    have hagree : AgreeOnArb s t := ⟨hdriven.cfg, hdriven.wr, hdriven.rd, hdriven.mem, hdriven.sampling⟩
    exact ⟨⟨hagree.ringInv h.inv, hwrst, hrrst⟩, (List.append_nil _).trans hagree.live_eq⟩

/-- An accepted byte is a byte. -/
theorem acceptedBy_isSome {s : State} {i : Instr} {x : Option Byte} (hx : x ∈ s.acceptedBy i) : x.isSome = true := by
  cases i with
  | wPush d =>
    simp only [State.acceptedBy] at hx
    split at hx
    · cases hx
    · rw [List.mem_singleton.mp hx]; rfl
  | brcNop | brcStart _ _ | brcApply | wNop | rNop | rPop | rFlush => cases hx

theorem bytesOf_acceptedBy_isSome {s : State} {e : HostStep} {x : Option Byte}
    (hx : x ∈ s.bytesOf State.acceptedBy e) : x.isSome = true := by
  unfold State.bytesOf at hx
  split at hx
  · cases hx
  · split at hx
    · exact acceptedBy_isSome hx
    · cases hx

/-- A run with its history is a step with its bytes and a run with its history behind it. -/
theorem playBytes_cons {e : HostStep} {es : List HostStep} {s u : State} {accepted left : List (Option Byte)}
    (h : playBytes (e :: es) s = some (accepted, left, u)) :
    ∃ t accepted' left', step (s.setScript [e]) = .next t ∧ playBytes es t = some (accepted', left', u) ∧
      accepted = s.bytesOf State.acceptedBy e ++ accepted' ∧ left = s.bytesOf State.leavingBy e ++ left' := by
  simp only [playBytes] at h
  split at h
  · next t hs =>
    split at h
    · next accepted' left' u' hes =>
      cases h
      exact ⟨t, accepted', left', hs, hes, rfl, rfl⟩
    · cases h
  · cases h
  · cases h

/-- A run that never drives the ARB resets to 0 is a queue: induction on its steps. -/
theorem RingRuns.playBytes_queue {es : List HostStep} {s u : State} {accepted left : List (Option Byte)}
    (h : RingRuns s) (hreset : ∀ e ∈ es, ∀ c w r, e = .resets c w r → w = true ∧ r = true)
    (hrun : playBytes es s = some (accepted, left, u)) :
    s.live ++ accepted = left ++ u.live ∧ ∀ x ∈ accepted, x.isSome = true := by
  induction es generalizing s accepted left with
  | nil => cases hrun; exact ⟨List.append_nil _, nofun⟩
  | cons e es ih =>
    obtain ⟨hhead, htail⟩ := List.forall_mem_cons.mp hreset
    obtain ⟨t, accepted', left', hs, hes, rfl, rfl⟩ := playBytes_cons hrun
    obtain ⟨ht, hstep⟩ := h.step_queue_step hhead hs
    obtain ⟨hrest, hbytes⟩ := ih ht htail hes
    constructor
    · calc s.live ++ (s.bytesOf State.acceptedBy e ++ accepted')
          = s.bytesOf State.leavingBy e ++ (t.live ++ accepted') := by
            rw [← List.append_assoc, hstep, List.append_assoc]
        _ = s.bytesOf State.leavingBy e ++ left' ++ u.live := by rw [hrest, List.append_assoc]
    · intro x hx
      obtain hnow | hlater := List.mem_append.mp hx
      · exact bytesOf_acceptedBy_isSome hnow
      · exact hbytes x hlater

/-- No byte is live at reset (R185). -/
theorem live_resetOf (c : Config) : (State.resetOf c).live = [] := by
  have hlen : subMod c.pw 0 0 = 0 := by simp [subMod]
  simp only [State.live, State.resetOf, WriteDomain.reset, ReadDomain.reset, hlen, List.range_zero, List.map_nil]

/-- Settles O51: every step of such a run is a step of the queue, and the run puts them one behind the other. -/
theorem bytesLeaveInPushOrder : Obligations.BytesLeaveInPushOrder :=
  ⟨fun _ _ _ _ _ hinv hw hr hreset hrun => RingRuns.playBytes_queue ⟨hinv, hw, hr⟩ hreset hrun, live_resetOf⟩

end Sys2Proof.Machine

/-!
PROOFS. The statements of 30_encoding.md about the command words: the ten forms of a word (R71 to R73), the agreement of
decoder and encoder (R74) and the rows of the opcode table (R83).
-/
namespace Sys2Proof

/-! ## The words of the three ports (R71 to R73) -/

/-- The formats word by word: the two bits of a BRCCMD or an RCMD word are one of four, and a WCMD word is its command bit
above its byte. -/
inductive CmdWord.Form : CmdWord → Prop
  | brcNop (f b : Word32) : Form (.brccmd 0b00#2 f b)
  | brcStart (f b : Word32) : Form (.brccmd 0b01#2 f b)
  | brcApply (f b : Word32) : Form (.brccmd 0b10#2 f b)
  | brcReserved (f b : Word32) : Form (.brccmd 0b11#2 f b)
  | wNop (d : Byte) : Form (.wcmd (0#1 ++ d))
  | wPush (d : Byte) : Form (.wcmd (1#1 ++ d))
  | rNop : Form (.rcmd 0b00#2)
  | rPop : Form (.rcmd 0b01#2)
  | rFlush : Form (.rcmd 0b10#2)
  | rReserved : Form (.rcmd 0b11#2)

theorem twoBits_cases (op : BitVec 2) : op = 0b00#2 ∨ op = 0b01#2 ∨ op = 0b10#2 ∨ op = 0b11#2 := by
  revert op; decide

/-- A WCMD word is its bit 8 above its bits 7 to 0 (R72). -/
theorem commandBit_append_byte (word : BitVec 9) : word.extractLsb' 8 1 ++ word.extractLsb' 0 8 = word :=
  (BitVec.extractLsb'_append_extractLsb'_eq_extractLsb' rfl).trans BitVec.extractLsb'_eq_self

/-- No word of a port is outside the formats. -/
theorem CmdWord.form (w : CmdWord) : w.Form := by
  cases w with
  | brccmd op f b =>
    obtain rfl | rfl | rfl | rfl := twoBits_cases op
    · exact .brcNop f b
    · exact .brcStart f b
    · exact .brcApply f b
    · exact .brcReserved f b
  | wcmd word =>
    rw [← commandBit_append_byte word]
    obtain hnop | hpush := BitVec.eq_zero_or_eq_one (word.extractLsb' 8 1)
    · rw [hnop]; exact .wNop _
    · rw [hpush]; exact .wPush _
  | rcmd op =>
    obtain rfl | rfl | rfl | rfl := twoBits_cases op
    · exact .rNop
    · exact .rPop
    · exact .rFlush
    · exact .rReserved

/-! ## Decoder and encoder -/

/-- Bit 8 of a WCMD word is the command bit (R72). -/
theorem wcmd_getLsbD_eight (c : BitVec 1) (d : Byte) : (c ++ d).getLsbD 8 = c.getLsbD 0 := BitVec.getLsbD_append

theorem decode_wcmd_nop (d : Byte) : decode (.wcmd (0#1 ++ d)) = .ok .wNop := by
  rw [decode, decodeWcmd, wcmd_getLsbD_eight]; rfl

theorem decode_wcmd_push (d : Byte) : decode (.wcmd (1#1 ++ d)) = .ok (.wPush d) := by
  rw [decode, decodeWcmd, wcmd_getLsbD_eight, BitVec.extractLsb'_append_eq_right]; rfl

theorem significant_wcmd_nop (d : Byte) : CmdWord.significant (.wcmd (0#1 ++ d)) = .wcmd 0#9 := by
  rw [CmdWord.significant, wcmd_getLsbD_eight]; rfl

theorem significant_wcmd_push (d : Byte) : CmdWord.significant (.wcmd (1#1 ++ d)) = .wcmd (1#1 ++ d) := by
  rw [CmdWord.significant, wcmd_getLsbD_eight]; rfl

/-- The word of a command decodes to it, with every operand (R71 to R73). -/
theorem decode_encode (i : Instr) : decode (encode i) = .ok i := by
  cases i with
  | wPush d => exact decode_wcmd_push d
  | brcNop | brcStart _ _ | brcApply | wNop | rNop | rPop | rFlush => rfl

/-- What a command ignores does not change what its word decodes to (R71, R72). -/
theorem decode_significant (w : CmdWord) : decode w.significant = decode w := by
  cases w.form with
  | wNop d => rw [significant_wcmd_nop, decode_wcmd_nop]; rfl
  | wPush d => rw [significant_wcmd_push]
  | brcNop | brcStart | brcApply | brcReserved | rNop | rPop | rFlush | rReserved => rfl

/-- A word that decodes is legal and its significant bits are the command's word (R71 to R73, R80). -/
theorem wellFormed_and_encode_of_decode {w : CmdWord} {i : Instr} (h : decode w = .ok i) :
    w.wellFormed = true ∧ encode i = w.significant := by
  cases w.form with
  | wNop d => rw [decode_wcmd_nop] at h; cases h; exact ⟨rfl, (significant_wcmd_nop d).symm⟩
  | wPush d => rw [decode_wcmd_push] at h; cases h; exact ⟨rfl, (significant_wcmd_push d).symm⟩
  | brcReserved | rReserved => cases h
  | brcNop | brcStart | brcApply | rNop | rPop | rFlush => cases h; exact ⟨rfl, rfl⟩

/-- Settles O1: a decoded command is read back off the significant bits, and these bits decode as the whole word does;
that the word is legal follows already from the second condition. -/
theorem decodeAndEncodeAgree : Obligations.DecodeAndEncodeAgree := by
  refine ⟨decode_encode, fun w i => ⟨wellFormed_and_encode_of_decode, fun ⟨_, hword⟩ => ?_⟩⟩
  rw [← decode_significant, ← hword, decode_encode]

/-! ## The opcode table (R83) -/

/-- The operand ports play no part in the table (R71). -/
theorem filter_hits_brccmd (op : BitVec 2) (f b : Word32) :
    opcodeTable.filter (fun r => r.hits (.brccmd op f b)) = opcodeTable.filter (fun r => r.hits (.brccmd op 0 0)) := rfl

theorem mask_of_write_row : ∀ r ∈ opcodeTable, r.port = .write → r.mask = 0x100 := by decide

/-- Under the mask of the write port's rows only the command bit of a word counts, and its byte is ignored (R72). -/
theorem filter_hits_wcmd (c : BitVec 1) (d : Byte) :
    opcodeTable.filter (fun r => r.hits (.wcmd (c ++ d))) =
      opcodeTable.filter (fun r => r.port == .write && (c.getLsbD 0).toNat * 0x100 == r.pattern) := by
  have hbits : (c ++ d).toNat &&& 0x100 = (c.getLsbD 0).toNat * 0x100 := by
    rw [← wcmd_getLsbD_eight c d]
    exact Nat.and_two_pow _ 8
  refine List.filter_congr fun r hr => ?_
  by_cases hport : r.port = .write
  · simp only [OpcodeRow.hits, CmdWord.domain, CmdWord.bits, mask_of_write_row r hr hport, hbits]
  · simp only [OpcodeRow.hits, CmdWord.domain, beq_eq_false_iff_ne.mpr hport, Bool.false_and]

/-- Settles O2: each form of a word but the two reserved ones is the pattern of one row under its mask. -/
theorem everyWordHasOneRowOrIsReserved : Obligations.EveryWordHasOneRowOrIsReserved := by
  intro w
  cases w.form with
  | brcReserved f b => exact .inr ⟨.inl ⟨f, b, rfl⟩, rfl, filter_hits_brccmd 0b11#2 f b⟩
  | rReserved => exact .inr ⟨.inr rfl, rfl, rfl⟩
  | brcNop f b => exact .inl ⟨_, ⟨"BRC.NOP", .brc, 0b00, 0b11⟩, rfl, filter_hits_brccmd 0b00#2 f b, rfl⟩
  | brcStart f b => exact .inl ⟨_, ⟨"BRC.START", .brc, 0b01, 0b11⟩, rfl, filter_hits_brccmd 0b01#2 f b, rfl⟩
  | brcApply f b => exact .inl ⟨_, ⟨"BRC.APPLY", .brc, 0b10, 0b11⟩, rfl, filter_hits_brccmd 0b10#2 f b, rfl⟩
  | wNop d =>
    exact .inl ⟨_, ⟨"W.NOP", .write, 0x000, 0x100⟩, decode_wcmd_nop d,
      (filter_hits_wcmd 0#1 d).trans (by decide), rfl⟩
  | wPush d =>
    exact .inl ⟨_, ⟨"W.PUSH", .write, 0x100, 0x100⟩, decode_wcmd_push d,
      (filter_hits_wcmd 1#1 d).trans (by decide), rfl⟩
  | rNop | rPop | rFlush => exact .inl ⟨_, _, rfl, rfl, rfl⟩

/-- Settles O3: the decoder, run on each of the words. -/
theorem sampleWordsDecode : Obligations.SampleWordsDecode :=
  ⟨rfl, rfl, rfl, rfl, rfl, rfl, rfl, rfl⟩

end Sys2Proof

/-!
PROOFS. The statements of 30_encoding.md about the machine: the step that runs a decoded command (R70, R87) and the
register images (R75 to R79).
-/
namespace Sys2Proof.Machine

/-! ## The edge that samples a word (R70, R87) -/

/-- A word that decodes is a command to run. -/
theorem planWord_of_decode {w : CmdWord} {i : Instr} (s : State) (h : decode w = .ok i) : planWord w s = .run i s := by
  simp [planWord, h]

theorem planStep_cclk_of_decode {s : State} {op : BitVec 2} {f b : Word32} {ack : Bool} {i : Instr} (rdata : Nat)
    (hrst : s.ports.crstN = true) (hack : ack = true → s.brc.busReq = true) (hd : decode (.brccmd op f b) = .ok i) :
    planStep (.cclk op f b ack rdata) s = .run i (s.driveBus ack rdata) := by
  simp only [planStep, refuseStrayAck_kept _ hack, driveBus_ports, hrst, if_true, planWord_of_decode _ hd]

theorem planStep_wclk_of_decode {s : State} {w : BitVec 9} {i : Instr} (d : Draw)
    (hrst : s.ports.wrstN = true) (hd : decode (.wcmd w) = .ok i) :
    planStep (.wclk w d) s = .run i (s.driveDrawR d) := by
  simp only [planStep, driveDrawR_ports, hrst, if_true, planWord_of_decode _ hd]

theorem planStep_rclk_of_decode {s : State} {op : BitVec 2} {i : Instr} (d : Draw)
    (hrst : s.ports.rrstN = true) (hd : decode (.rcmd op) = .ok i) :
    planStep (.rclk op d) s = .run i (s.driveDrawW d) := by
  simp only [planStep, driveDrawW_ports, hrst, if_true, planWord_of_decode _ hd]

/-- With an accepted configuration a step runs the command its script's next HOST step plans. -/
theorem step_of_planStep_run {s t : State} {e : HostStep} {rest : List HostStep} {i : Instr}
    (hc : configRefusal s.cfg = none) (hs : s.script = e :: rest)
    (hp : planStep e (s.setScript rest) = .run i t) : step s = exec i t := by
  simp [step, plan_of_accepted hc, takeHostStep_script_cons hs, hp]

/-- Settles O4: taking the step off the script changes neither the reset levels nor BRC, so the edge of each port plans
its word's command. -/
theorem stepRunsTheDecodedCommand : Obligations.StepRunsTheDecodedCommand := by
  intro s rest i hc
  refine ⟨?_, ?_, ?_⟩
  · intro op f b ack rdata hs hrst hack hd
    exact step_of_planStep_run hc hs (planStep_cclk_of_decode rdata hrst hack hd)
  · intro w d hs hrst hd
    exact step_of_planStep_run hc hs (planStep_wclk_of_decode d hrst hd)
  · intro op d hs hrst hd
    exact step_of_planStep_run hc hs (planStep_rclk_of_decode d hrst hd)

/-! ## The register images (R75 to R79) -/

theorem dllImg_toNat (b : Brc) : b.dllImg.toNat = b.resDl.toNat % 256 := by
  simp [Brc.dllImg]

theorem dlmImg_toNat (b : Brc) : b.dlmImg.toNat = b.resDl.toNat / 256 := by
  have hdl := b.resDl.isLt
  simp only [Brc.dlmImg, BitVec.extractLsb'_toNat, Nat.shiftRight_eq_div_pow]
  omega

/-- The FDR image is the denominator above the four bits of the numerator (R76). -/
theorem fdrImg_toNat (b : Brc) : b.fdrImg.toNat = 16 * b.resMul.toNat + b.resDivadd.toNat := by
  rw [Brc.fdrImg, BitVec.toNat_append, ← Nat.shiftLeft_add_eq_or_of_lt b.resDivadd.isLt, Nat.shiftLeft_eq, Nat.mul_comm]

/-- The fraction of the sentinel and of no result yet shows `0x10` (R78, R79). -/
theorem fdrImg_of_sentinel_fraction {b : Brc} (hnum : b.resDivadd = 0#4) (hden : b.resMul = 1#4) :
    b.fdrImg = 0x10#8 := by
  rw [Brc.fdrImg, hnum, hden]; rfl

/-- Settles O32: the images are cut out of the result registers, which show their reset values while no result is
valid. -/
theorem imagesShowTheResult : Obligations.ImagesShowTheResult := by
  refine ⟨fun b => ⟨dllImg_toNat b, dlmImg_toNat b, fdrImg_toNat b⟩, fun b hnum hden => ?_, fun c b hinv hvalid => ?_⟩
  · rw [Brc.fdrImg, hnum, hden]; rfl
  · obtain ⟨hdl, hnum, hden⟩ := hinv.clearedWhileInvalid hvalid
    refine ⟨?_, ?_, fdrImg_of_sentinel_fraction hnum hden⟩
    · rw [Brc.dllImg, hdl]; rfl
    · rw [Brc.dlmImg, hdl]; rfl

/-- A valid result is unachievable exactly when its divisor is 0 (R24). -/
theorem BrcInv.unach_iff_of_valid {c : Config} {b : Brc} (h : BrcInv c b) (hvalid : b.resValid = true) :
    b.resUnach = true ↔ b.resDl = 0#16 := by
  simpa [hvalid] using h.unachIff

/-- Settles O33: a valid result is the sentinel, with divisor 0, or a divisor with a proper fraction. -/
theorem fdrImageIsLegal : Obligations.FdrImageIsLegal := by
  intro c b hinv hvalid
  have hunach := hinv.unach_iff_of_valid hvalid
  obtain ⟨hdl, hnum, hden⟩ | ⟨hdl, hproper⟩ := hinv.resultLegal
  · have hset := hunach.mpr hdl
    exact ⟨fun hclear => by simp [hset] at hclear, fun _ => fdrImg_of_sentinel_fraction hnum hden⟩
  · have hden := b.resMul.isLt
    have hlt := BitVec.lt_def.mp hproper
    exact ⟨fun _ => by omega, fun hset => absurd (hunach.mp hset) hdl⟩

end Sys2Proof.Machine

/-!
PROOFS. The statements of 40_baud_calculator.md about the commands and the calculation (R90 to R93): what a `cclk` edge
does while BRC is busy, and the countdown from an accepted BRC.START.
-/
namespace Sys2Proof.Machine

/-! ## A `cclk` edge while BRC is busy (R90, R92) -/

/-- While BRC is busy the edge of each of its commands is only the progress (R90, R92, R174). -/
theorem exec_of_busy {i : Instr} {s : State} (hi : i.domain = .brc) (hbusy : s.brc.busy = true) :
    exec i s = .next (s.setBrc s.brcProgress) := by
  cases i with
  | brcNop => rfl
  | brcStart f b => simp [exec, execBrcStart, hbusy]
  | brcApply => simp [exec, execBrcApply, hbusy]
  | wNop | wPush _ | rNop | rPop | rFlush => cases hi

theorem brcProgress_of_calc {s : State} (hbusy : s.brc.busy = true) (hop : s.brc.op = .calc) :
    s.brcProgress = s.brc.calcStep s.cfg := by
  simp [State.brcProgress, Brc.progress, hbusy, hop]

theorem brcProgress_of_apply {s : State} (hbusy : s.brc.busy = true) (hop : s.brc.op = .apply) :
    s.brcProgress = s.brc.transactionStep s.cfg s.ports.busAck s.ports.busRdata := by
  simp [State.brcProgress, Brc.progress, hbusy, hop]

/-- Settles O11: the progress is nothing in an idle BRC, and the step of the operation in a busy one. -/
theorem brcNopOnlyLetsWorkProgress : Obligations.BrcNopOnlyLetsWorkProgress := by
  intro s
  refine ⟨fun hidle => ?_, fun hbusy hop => ?_, fun hbusy hop => ?_⟩
  · have hkept : s.brcProgress = s.brc := Brc.progress_idle hidle
    rw [exec, execBrcNop, hkept, setBrc_self]
  · rw [exec_of_busy rfl hbusy, brcProgress_of_calc hbusy hop]; rfl
  · rw [exec_of_busy rfl hbusy, brcProgress_of_apply hbusy hop]; rfl

/-- A START is accepted by an idle BRC (R91). -/
theorem exec_brcStart_of_idle {s : State} (f b : Word32) (hidle : s.brc.busy = false) :
    exec (.brcStart f b) s = .next (s.setBrc (s.brc.acceptStart s.cfg f b)) := by
  simp [exec, execBrcStart, hidle]

/-- Settles O13: either command's edge is the progress alone, as a NOP's is. -/
theorem commandsIgnoredWhileBusy : Obligations.CommandsIgnoredWhileBusy :=
  fun _ _ _ hbusy => ⟨exec_of_busy rfl hbusy, exec_of_busy rfl hbusy⟩

/-- Settles O12: the accepted state is R91's, and a busy BRC ignores the START. -/
theorem startLatchesOperandsAndClearsResult : Obligations.StartLatchesOperandsAndClearsResult :=
  fun s f b => ⟨exec_brcStart_of_idle f b, fun hbusy => (commandsIgnoredWhileBusy s f b hbusy).1⟩

/-! ## The countdown (R93) -/

/-- The edge of any BRC command while a calculation is in progress. -/
theorem exec_of_calculating {i : Instr} {s : State} (hi : i.domain = .brc) (hbusy : s.brc.busy = true)
    (hop : s.brc.op = .calc) : exec i s = .next (s.setBrc (s.brc.calcStep s.cfg)) := by
  rw [exec_of_busy hi hbusy, brcProgress_of_calc hbusy hop]

theorem calcStep_of_last {c : Config} {b : Brc} (h : b.lat = 1) :
    b.calcStep c = ({ b with lat := 0 } : Brc).completeCalc c := by
  simp [Brc.calcStep, h]

theorem calcStep_of_not_last {c : Config} {b : Brc} (h : b.lat ≠ 1) : b.calcStep c = { b with lat := b.lat - 1 } := by
  simp [Brc.calcStep, h]

/-- Settles O14: the calculation's step completes at `lat = 1` and counts at any other value. -/
theorem calculationCountsDownAndCompletes : Obligations.CalculationCountsDownAndCompletes := by
  rintro s i _ hi hbusy hop rfl
  rw [exec_of_calculating hi hbusy hop]
  by_cases hlast : s.brc.lat = 1
  · rw [calcStep_of_last hlast, if_pos hlast]; rfl
  · rw [calcStep_of_not_last hlast, if_neg hlast]; rfl

/-! ## Runs of silent edges (R199) -/

/-- A legal BRCCMD word decodes to a command of BRC's port (R71). -/
theorem decode_brccmd_of_legal {op : BitVec 2} (f b : Word32) (h : op ≠ 0b11#2) :
    ∃ i, decode (.brccmd op f b) = .ok i ∧ i.domain = .brc := by
  obtain rfl | rfl | rfl | rfl := twoBits_cases op
  · exact ⟨.brcNop, rfl, rfl⟩
  · exact ⟨.brcStart f b, rfl, rfl⟩
  · exact ⟨.brcApply, rfl, rfl⟩
  · exact absurd rfl h

/-- The step of a `cclk` edge with `bus_ack = 0`, out of reset: its word's command, in the state that has sampled the
bus. -/
theorem step_silent_cclk {s : State} {op : BitVec 2} {f b : Word32} {i : Instr} (rdata : Nat)
    (hc : configRefusal s.cfg = none) (hrst : s.ports.crstN = true) (hd : decode (.brccmd op f b) = .ok i) :
    step (s.setScript [.cclk op f b false rdata]) = exec i ((s.setScript []).driveBus false rdata) :=
  step_of_planStep_run (rest := []) hc rfl (planStep_cclk_of_decode rdata hrst nofun hd)

/-- A silent edge runs some command of BRC's port. -/
theorem step_of_silentBrcEdge {s : State} {e : HostStep} (hc : configRefusal s.cfg = none)
    (hrst : s.ports.crstN = true) (he : silentBrcEdge e = true) :
    ∃ i rdata, i.domain = .brc ∧ step (s.setScript [e]) = exec i ((s.setScript []).driveBus false rdata) := by
  cases e with
  | cclk op f b ack rdata =>
    simp only [silentBrcEdge, Bool.and_eq_true, bne_iff_ne, Bool.not_eq_true'] at he
    obtain ⟨hop, rfl⟩ := he
    obtain ⟨i, hd, hi⟩ := decode_brccmd_of_legal f b hop
    exact ⟨i, rdata, hi, step_silent_cclk rdata hc hrst hd⟩
  | wclk _ _ | rclk _ _ | resets _ _ _ | portOutOfDomain _ | readOutOfDomain _ => cases he

/-- A run that takes its first step goes on from the state it gives. -/
theorem play_cons_of_next {e : HostStep} {es : List HostStep} {s t : State} (h : step (s.setScript [e]) = .next t) :
    play (e :: es) s = play es t := by
  simp [play, h]

/-! ## From START to completion (R91, R93, R196) -/

/-- BRC calculates the result of `f` and `b`, with `m` edges to go (R28, R91). -/
structure Calculating (f b : Word32) (m : Nat) (x : Brc) : Prop where
  busy : x.busy = true
  done : x.done = false
  invalid : x.resValid = false
  op : x.op = .calc
  inClk : x.inClk = f
  inBaud : x.inBaud = b
  lat : x.lat = m

/-- BRC holds the result of `f` and `b` (R93). -/
structure Calculated (c : Config) (f b : Word32) (x : Brc) : Prop where
  busy : x.busy = false
  done : x.done = true
  valid : x.resValid = true
  inClk : x.inClk = f
  inBaud : x.inBaud = b
  dl : x.resDl = BitVec.ofNat 16 (brcFunc c.divRound f.toNat b.toNat).dl
  divadd : x.resDivadd = BitVec.ofNat 4 (brcFunc c.divRound f.toNat b.toNat).num
  mul : x.resMul = BitVec.ofNat 4 (brcFunc c.divRound f.toNat b.toNat).den
  unach : x.resUnach = decide ((brcFunc c.divRound f.toNat b.toNat).dl = 0)

theorem calculating_acceptStart (c : Config) (f b : Word32) (x : Brc) :
    Calculating f b c.brcLatency (x.acceptStart c f b) := ⟨rfl, rfl, rfl, rfl, rfl, rfl, rfl⟩

theorem Calculating.count {c : Config} {f b : Word32} {m : Nat} {x : Brc} (h : Calculating f b (m + 2) x) :
    Calculating f b (m + 1) (x.calcStep c) := by
  rw [calcStep_of_not_last (by rw [h.lat]; omega)]
  exact { h with lat := by rw [h.lat]; rfl }

theorem Calculating.complete {c : Config} {f b : Word32} {x : Brc} (h : Calculating f b 1 x) :
    Calculated c f b (x.calcStep c) := by
  rw [calcStep_of_last h.lat]
  obtain ⟨-, -, -, -, rfl, rfl, -⟩ := h
  exact ⟨rfl, rfl, rfl, rfl, rfl, rfl, rfl, rfl, rfl⟩

/-- The edge of an accepted START leaves `BRC_LATENCY` edges to go and does not touch ARB (R91, R196). -/
theorem start_silent_edge {s : State} (f b : Word32) (rdata : Nat) (hc : configRefusal s.cfg = none)
    (hrst : s.ports.crstN = true) (hidle : s.brc.busy = false) :
    ∃ t, step (s.setScript [.cclk 0b01#2 f b false rdata]) = .next t ∧ t.ports.crstN = true ∧
      Calculating f b s.cfg.brcLatency t.brc ∧ AgreeOnArb t s :=
  ⟨_, (step_silent_cclk rdata hc hrst rfl).trans (exec_brcStart_of_idle f b hidle), hrst,
    calculating_acceptStart s.cfg f b s.brc, rfl, rfl, rfl, rfl, rfl⟩

/-- A silent edge during a calculation is one step of it and does not touch ARB (R93, R196). -/
theorem Calculating.silent_edge {f b : Word32} {m : Nat} {s : State} {e : HostStep} (h : Calculating f b m s.brc)
    (hc : configRefusal s.cfg = none) (hrst : s.ports.crstN = true) (he : silentBrcEdge e = true) :
    ∃ t, step (s.setScript [e]) = .next t ∧ t.ports.crstN = true ∧ t.brc = s.brc.calcStep s.cfg ∧ AgreeOnArb t s := by
  obtain ⟨i, rdata, hi, hstep⟩ := step_of_silentBrcEdge hc hrst he
  exact ⟨_, hstep.trans (exec_of_calculating hi h.busy h.op), hrst, rfl, rfl, rfl, rfl, rfl, rfl⟩

theorem AgreeOnArb.trans {s t u : State} (h : AgreeOnArb s t) (h' : AgreeOnArb t u) : AgreeOnArb s u :=
  ⟨h.cfg.trans h'.cfg, h.wr.trans h'.wr, h.rd.trans h'.rd, h.mem.trans h'.mem, h.sampling.trans h'.sampling⟩

/-- A run of silent edges no longer than the edges to go: the calculation is complete exactly at the last of these. -/
theorem Calculating.silent_run {f b : Word32} {m : Nat} {s : State} {es : List HostStep}
    (h : Calculating f b (m + 1) s.brc) (hc : configRefusal s.cfg = none) (hrst : s.ports.crstN = true)
    (hes : ∀ e ∈ es, silentBrcEdge e = true) (hlen : es.length ≤ m + 1) :
    ∃ t, play es s = .next t ∧ AgreeOnArb t s ∧
      (es.length < m + 1 → ∃ n, Calculating f b n t.brc) ∧
      (es.length = m + 1 → Calculated s.cfg f b t.brc) := by
  induction es generalizing s m with
  | nil => exact ⟨s, rfl, ⟨rfl, rfl, rfl, rfl, rfl⟩, fun _ => ⟨_, h⟩, nofun⟩
  | cons e es ih =>
    obtain ⟨he, hes'⟩ := List.forall_mem_cons.mp hes
    obtain ⟨u, hstep, hrst', hbrc, hkept⟩ := h.silent_edge hc hrst he
    rw [play_cons_of_next hstep]
    simp only [List.length_cons, Nat.add_le_add_iff_right, Nat.add_lt_add_iff_right, Nat.add_right_cancel_iff] at hlen ⊢
    cases m with
    | zero =>
      obtain rfl : es = [] := List.eq_nil_of_length_eq_zero (Nat.le_zero.mp hlen)
      exact ⟨u, rfl, hkept, nofun, fun _ => hbrc ▸ h.complete⟩
    | succ m =>
      obtain ⟨t, hplay, hkept', hrun, hend⟩ := ih (hbrc ▸ h.count) (hkept.cfg ▸ hc) hrst' hes' hlen
      exact ⟨t, hplay, hkept'.trans hkept, hrun, hkept.cfg ▸ hend⟩

/-- Settles O15: the START's edge leaves `BRC_LATENCY` edges to go, at least 1, and the silent edges count them down. -/
theorem startCompletesAfterLatency : Obligations.StartCompletesAfterLatency := by
  rintro s f b rdata es _ hc hrst hidle hes hlen rfl
  obtain ⟨u, hstart, hrst', hcalc, hkept⟩ := start_silent_edge f b rdata hc hrst hidle
  obtain ⟨m, hm⟩ := Nat.exists_eq_add_of_le' (brcLatency_pos_of_accepted hc)
  rw [hm] at hcalc hlen ⊢
  rw [play_cons_of_next hstart]
  obtain ⟨t, hplay, hkept', hrun, hend⟩ := hcalc.silent_run (hkept.cfg ▸ hc) hrst' hes hlen
  obtain ⟨-, hwr, hrd, hmem, hsampling⟩ := hkept'.trans hkept
  rw [hkept.cfg] at hend
  refine ⟨t, hplay, hwr, hrd, hmem, hsampling, fun hlt => ?_, fun hlast => ?_⟩
  · obtain ⟨n, h⟩ := hrun hlt
    exact ⟨h.busy, h.done, h.invalid⟩
  · obtain ⟨hbusy, hdone, hvalid, hclk, hbaud, hdl, hdivadd, hmul, hunach⟩ := hend hlast
    exact ⟨hbusy, hdone, hvalid, hclk, hbaud, hdl, hdivadd, hmul, hunach⟩

end Sys2Proof.Machine

/-!
PROOFS. The statements of 40_baud_calculator.md about BRC_FUNC (R94 to R109): the search ends at the least key, where a
pair's key is its exact relative error and then the tie-break of R100.
-/
namespace Sys2Proof.Machine

/-! ## Exact relative errors (R98) -/

/-- The error of R96 is a distance of naturals. -/
theorem absError_eq_dist (f k n d : Nat) : absError f k n d = Nat.dist (f * d) (k * (d + n)) := rfl

/-- `E / s` of a pair `(n, d)`: its relative error times the constant `K`, which cancels in every comparison (R98). -/
def relError (f k : Nat) (p : Nat × Nat) : ℚ := (absError f k p.1 p.2 : ℚ) / (p.2 + p.1 : Nat)

/-- The search's cross products compare the relative errors. -/
theorem strictlyCloser_iff {f k : Nat} {p q : Nat × Nat} (hp : 0 < p.2) (hq : 0 < q.2) :
    strictlyCloser f k p q = true ↔ relError f k p < relError f k q := by
  have hp' : (0 : ℚ) < (p.2 + p.1 : Nat) := by exact_mod_cast Nat.add_pos_left hp _
  have hq' : (0 : ℚ) < (q.2 + q.1 : Nat) := by exact_mod_cast Nat.add_pos_left hq _
  rw [relError, relError, div_lt_div_iff₀ hp' hq']
  norm_cast
  exact decide_eq_true_iff

theorem errorAtMost_iff {f k n₁ d₁ n₂ d₂ : Nat} (h₁ : 0 < d₁) (h₂ : 0 < d₂) :
    ErrorAtMost f k n₁ d₁ n₂ d₂ ↔ relError f k (n₁, d₁) ≤ relError f k (n₂, d₂) := by
  have h := strictlyCloser_iff (f := f) (k := k) (p := (n₂, d₂)) (q := (n₁, d₁)) h₂ h₁
  rw [← not_lt, ← h, ErrorAtMost, strictlyCloser, decide_eq_true_iff, not_lt]

theorem FractionPair.den_pos {n d : Nat} (h : FractionPair n d) : 0 < d := Nat.zero_lt_of_lt h.1

theorem fractionPair_zero_one : FractionPair 0 1 := ⟨by decide, by decide⟩

theorem LeastError.relError_le {f k n d n' d' : Nat} (h : LeastError f k n d) (h' : FractionPair n' d') :
    relError f k (n, d) ≤ relError f k (n', d') :=
  (errorAtMost_iff h.1.den_pos h'.den_pos).mp (h.2 n' d' h')

/-- `E / s` is the distance of `F * d / s` from `K`. -/
theorem relError_eq_abs {f k n d : Nat} (hd : 0 < d) :
    relError f k (n, d) = |f * ((d : ℚ) / (d + n)) - k| := by
  have hs : (0 : ℚ) < d + n := by positivity
  have hdist : (absError f k n d : ℚ) = |(f : ℚ) * d - k * (d + n)| := by
    rw [absError_eq_dist, Nat.dist_eq_max_sub_min, Nat.cast_sub (min_le_max)]
    push_cast
    exact max_sub_min_eq_abs' _ _
  have hsplit : f * ((d : ℚ) / (d + n)) - k = (f * d - k * (d + n)) / (d + n) := by field_simp
  rw [hsplit, abs_div, abs_of_pos hs, ← hdist, relError]
  push_cast
  rfl

/-- The error has no peak inside: a fraction between two others is no further from the target than the further of them,
since `F * d / s` falls as `n / d` rises. -/
theorem relError_le_max {f k n₁ d₁ n d n₂ d₂ : Nat} (h₁ : 0 < d₁) (h : 0 < d) (h₂ : 0 < d₂)
    (hlow : n₁ * d ≤ n * d₁) (hhigh : n * d₂ ≤ n₂ * d) :
    relError f k (n, d) ≤ max (relError f k (n₁, d₁)) (relError f k (n₂, d₂)) := by
  rw [relError_eq_abs h₁, relError_eq_abs h, relError_eq_abs h₂, max_comm]
  refine abs_le_max_abs_abs ?_ ?_ <;> gcongr ?_ * ?_ - _
  · rw [div_le_div_iff₀ (by positivity) (by positivity)]
    norm_cast
    linarith
  · rw [div_le_div_iff₀ (by positivity) (by positivity)]
    norm_cast
    linarith

/-! ## The search list (R99) -/

/-- The search list holds every pair of R99. -/
theorem FractionPair.mem {n d : Nat} (h : FractionPair n d) : (n, d) ∈ fractionPairs := by
  have hpos := h.den_pos
  obtain ⟨hn, hd⟩ := h
  refine List.mem_flatMap.mpr ⟨d - 1, List.mem_range.mpr (by rw [fracMax]; omega), List.mem_map.mpr ⟨n, ?_⟩⟩
  rw [Nat.sub_add_cancel hpos]
  exact ⟨List.mem_range.mpr hn, rfl⟩

/-- The tie-break of R100: the smaller denominator, then the smaller numerator. -/
def tieRank (p : Nat × Nat) : ℕ ×ₗ ℕ := toLex (p.2, p.1)

/-- The search meets the pairs in the order of the tie-break: `d` ascending, then `n` ascending (R96). -/
theorem fractionPairs_ascending : fractionPairs.Pairwise fun p q => tieRank p ≤ tieRank q := by
  refine List.pairwise_flatMap.mpr ⟨fun i _ => List.pairwise_map.mpr ?_, ?_⟩
  · refine List.pairwise_lt_range.imp fun {a b} hab => ?_
    exact Prod.Lex.toLex_le_toLex.mpr (.inr ⟨rfl, hab.le⟩)
  · refine List.pairwise_lt_range.imp fun {i j} hij p hp q hq => ?_
    obtain ⟨n, -, rfl⟩ := List.mem_map.mp hp
    obtain ⟨m, -, rfl⟩ := List.mem_map.mp hq
    exact Prod.Lex.toLex_le_toLex.mpr (.inl (Nat.succ_lt_succ hij))

/-! ## The search loop (R96, R98, R100) -/

/-- What the search minimises: the relative error, then the tie-break. -/
def searchKey (f k : Nat) (p : Nat × Nat) : ℚ ×ₗ (ℕ ×ₗ ℕ) := toLex (relError f k p, tieRank p)

theorem searchKey_le_iff {f k n d n' d' : Nat} :
    searchKey f k (n, d) ≤ searchKey f k (n', d') ↔
      relError f k (n, d) < relError f k (n', d') ∨
      relError f k (n, d) = relError f k (n', d') ∧ (d < d' ∨ d = d' ∧ n ≤ n') := by
  simp only [searchKey, tieRank, Prod.Lex.toLex_le_toLex]

/-- One turn of the search: of the best pair and a pair later in the tie-break it keeps one whose key is below neither. -/
theorem keepCloser_some {f k : Nat} {q p : Nat × Nat} (hq : 0 < q.2) (hp : 0 < p.2) (htie : tieRank q ≤ tieRank p) :
    ∃ r, keepCloser f k (some q) p = some r ∧ (r = q ∨ r = p) ∧
      searchKey f k r ≤ searchKey f k q ∧ searchKey f k r ≤ searchKey f k p := by
  by_cases hcloser : strictlyCloser f k p q = true
  · have hlt := (strictlyCloser_iff hp hq).mp hcloser
    exact ⟨p, if_pos hcloser, .inr rfl, Prod.Lex.toLex_le_toLex.mpr (.inl hlt), le_rfl⟩
  · have hle := not_lt.mp (mt (strictlyCloser_iff hp hq).mpr hcloser)
    exact ⟨q, if_neg hcloser, .inl rfl, le_rfl, Prod.Lex.toLex_le_toLex.mpr (hle.lt_or_eq.imp_right fun h => ⟨h, htie⟩)⟩

/-- The search ends at a least key among the best pair and the pairs left, when these come in the order of the
tie-break. -/
theorem foldl_keepCloser_least {f k : Nat} (ps : List (Nat × Nat)) (q : Nat × Nat) (hpos : ∀ p ∈ q :: ps, 0 < p.2)
    (hasc : (q :: ps).Pairwise fun a b => tieRank a ≤ tieRank b) :
    ∃ r, ps.foldl (keepCloser f k) (some q) = some r ∧ ∀ p ∈ q :: ps, searchKey f k r ≤ searchKey f k p := by
  induction ps generalizing q with
  | nil => exact ⟨q, rfl, by simp⟩
  | cons p ps ih =>
    obtain ⟨hq, hpos'⟩ := List.forall_mem_cons.mp hpos
    obtain ⟨hqps, hasc'⟩ := List.pairwise_cons.mp hasc
    obtain ⟨b, hb, hbor, hbq, hbp⟩ := keepCloser_some (f := f) (k := k) hq (hpos' p List.mem_cons_self)
      (hqps p List.mem_cons_self)
    have hnext : (∀ x ∈ b :: ps, 0 < x.2) ∧ (b :: ps).Pairwise fun a c => tieRank a ≤ tieRank c := by
      obtain rfl | rfl := hbor
      · exact ⟨fun x hx => hpos x ((List.Sublist.cons_cons b (List.sublist_cons_self p ps)).subset hx),
          hasc.sublist (List.Sublist.cons_cons b (List.sublist_cons_self p ps))⟩
      · exact ⟨hpos', hasc'⟩
    obtain ⟨r, hr, hleast⟩ := ih b hnext.1 hnext.2
    obtain ⟨hrb, hrps⟩ := List.forall_mem_cons.mp hleast
    refine ⟨r, by rw [List.foldl_cons, hb, hr], ?_⟩
    exact List.forall_mem_cons.mpr ⟨hrb.trans hbq, List.forall_mem_cons.mpr ⟨hrb.trans hbp, hrps⟩⟩

/-- The search finds a pair of R99 with the least key of all. -/
theorem searchFraction_least (f k : Nat) :
    ∃ n d, searchFraction f k = some (n, d) ∧ FractionPair n d ∧
      ∀ n' d', FractionPair n' d' → searchKey f k (n, d) ≤ searchKey f k (n', d') := by
  obtain ⟨q, ps, hcons⟩ := List.exists_cons_of_ne_nil (List.ne_nil_of_mem fractionPair_zero_one.mem)
  obtain ⟨⟨n, d⟩, hfold, hleast⟩ := foldl_keepCloser_least (f := f) (k := k) ps q
    (fun p hp => (fractionPair_of_mem (hcons ▸ hp)).den_pos) (hcons ▸ fractionPairs_ascending)
  have hfound : searchFraction f k = some (n, d) := by rw [searchFraction, hcons]; exact hfold
  exact ⟨n, d, hfound, searchFraction_fractionPair hfound, fun n' d' h => hleast _ (hcons ▸ h.mem)⟩

/-- A pair of least key has the least error, and any other pair of least error loses the tie-break to it. -/
theorem leastError_of_searchKey_le {f k n d : Nat} (hpair : FractionPair n d)
    (hleast : ∀ n' d', FractionPair n' d' → searchKey f k (n, d) ≤ searchKey f k (n', d')) :
    LeastError f k n d ∧ ∀ n' d', LeastError f k n' d' → d < d' ∨ d = d' ∧ n ≤ n' := by
  refine ⟨⟨hpair, fun n' d' h => (errorAtMost_iff hpair.den_pos h.den_pos).mpr ?_⟩, fun n' d' h => ?_⟩
  · obtain hlt | ⟨heq, -⟩ := searchKey_le_iff.mp (hleast n' d' h)
    · exact hlt.le
    · exact heq.le
  · obtain hlt | ⟨-, htie⟩ := searchKey_le_iff.mp (hleast n' d' h.1)
    · exact absurd hlt (h.relError_le hpair).not_gt
    · exact htie

/-! ## BRC_FUNC (R94 to R96, R101) -/

/-- BRC_FUNC makes no search: a zero input (R101) or a candidate divisor out of range (R95). -/
def NoSearch (r : DivRound) (f b : Nat) : Prop :=
  f = 0 ∨ b = 0 ∨ candidateDivisor r f b = 0 ∨ 65535 < candidateDivisor r f b

theorem brcFunc_of_noSearch {r : DivRound} {f b : Nat} (h : NoSearch r f b) : brcFunc r f b = ⟨0, 0, 1⟩ := by
  obtain hf | hb | hd := h
  · simp [brcFunc, hf, BaudResult.sentinel]
  · simp [brcFunc, hb, BaudResult.sentinel]
  · simp [brcFunc, dlMax, hd, BaudResult.sentinel]

/-- With a search, the result is the candidate divisor with the pair of least error the tie-break prefers. -/
theorem brcFunc_of_search {r : DivRound} {f b : Nat} (h : ¬NoSearch r f b) :
    ∃ n d, brcFunc r f b = ⟨candidateDivisor r f b, n, d⟩ ∧
      LeastError f (rateScale (candidateDivisor r f b) b) n d ∧
      ∀ n' d', LeastError f (rateScale (candidateDivisor r f b) b) n' d' → d < d' ∨ d = d' ∧ n ≤ n' := by
  obtain ⟨n, d, hfound, hpair, hleast⟩ := searchFraction_least f (rateScale (candidateDivisor r f b) b)
  simp only [NoSearch, not_or] at h
  obtain ⟨hf, hb, hzero, hmax⟩ := h
  refine ⟨n, d, ?_, leastError_of_searchKey_le hpair hleast⟩
  simp [brcFunc, dlMax, hf, hb, hzero, hmax, hfound]

theorem brcFunc_eq_sentinel_iff {r : DivRound} {f b : Nat} : brcFunc r f b = ⟨0, 0, 1⟩ ↔ NoSearch r f b := by
  refine ⟨fun h => ?_, brcFunc_of_noSearch⟩
  by_contra hsearch
  obtain ⟨n, d, hres, -⟩ := brcFunc_of_search hsearch
  have hzero : candidateDivisor r f b = 0 := congrArg BaudResult.dl (hres.symm.trans h)
  exact hsearch (.inr (.inr (.inl hzero)))

/-- Settles O16: the statement's candidate divisor is the model's, and the search finds the preferred pair. -/
theorem brcFuncFindsTheClosestFraction : Obligations.BrcFuncFindsTheClosestFraction := by
  intro r f b d0 hd0
  have hcand : d0 = candidateDivisor r f b := by rw [hd0]; cases r <;> rfl
  subst hcand
  exact ⟨brcFunc_of_noSearch, brcFunc_of_search⟩

/-! ## The second tie-break (R100) -/

/-- Of two least pairs of one denominator the smaller numerator over the next smaller denominator lies between them, so
it is a least pair too. -/
theorem LeastError.pred_den {f k n₁ n₂ d : Nat} (h₁ : LeastError f k n₁ d) (h₂ : LeastError f k n₂ d)
    (hlt : n₁ < n₂) : LeastError f k n₁ (d - 1) := by
  obtain ⟨hn₂, hd⟩ := h₂.1
  have hpair : FractionPair n₁ (d - 1) := ⟨by omega, by omega⟩
  have hhigh : n₁ * d ≤ n₂ * (d - 1) := by
    obtain ⟨m, rfl⟩ : ∃ m, d = m + 1 := ⟨d - 1, by omega⟩
    have hstep : (n₁ + 1) * m ≤ n₂ * m := Nat.mul_le_mul_right m hlt
    rw [Nat.add_sub_cancel]
    linarith
  have hmax := relError_le_max (f := f) (k := k) h₁.1.den_pos hpair.den_pos h₂.1.den_pos
    (Nat.mul_le_mul_left n₁ (Nat.sub_le d 1)) hhigh
  refine ⟨hpair, fun n' d' h => (errorAtMost_iff hpair.den_pos h.den_pos).mpr ?_⟩
  exact hmax.trans (max_le (h₁.relError_le h) (h₂.relError_le h))

/-- Settles O17: two numerators would give a least pair of a smaller denominator. -/
theorem numeratorTieBreakNeverDecides : Obligations.NumeratorTieBreakNeverDecides := by
  intro f k n₁ n₂ d _ h₁ h₂ hsmallest
  have hpos := h₁.1.den_pos
  obtain hlt | heq | hgt := lt_trichotomy n₁ n₂
  · have := hsmallest _ _ (h₁.pred_den h₂ hlt)
    omega
  · exact heq
  · have := hsmallest _ _ (h₂.pred_den h₁ hgt)
    omega

/-! ## Legality, thresholds and the zero numerator (R103 to R105) -/

/-- Settles O18: the pair of a result that is not the sentinel is one of R99. -/
theorem brcFuncResultIsLegal : Obligations.BrcFuncResultIsLegal := by
  intro r f b
  obtain hsent | ⟨hpos, hmax, hpair⟩ := brcFunc_sentinel_or_legal r f b
  · exact .inl hsent
  · exact .inr ⟨hpos, hmax, hpair.den_pos, hpair.2, hpair.1⟩

/-- Settles O19: the candidate divisor is a quotient by `16 * B`, so its range is a range of the dividend. -/
theorem sentinelThresholds : Obligations.SentinelThresholds := by
  intro f b hf hb
  have hdiv : 0 < 16 * b := by omega
  have hrange (x : Nat) : (x / (16 * b) = 0 ↔ x < 16 * b) ∧ (65535 < x / (16 * b) ↔ 65536 * (16 * b) ≤ x) :=
    ⟨Nat.div_eq_zero_iff_lt hdiv, Nat.le_div_iff_mul_le hdiv⟩
  constructor
  · rw [brcFunc_eq_sentinel_iff, NoSearch, candidateDivisor, (hrange f).1, (hrange f).2]
    omega
  · rw [brcFunc_eq_sentinel_iff, NoSearch, candidateDivisor, (hrange _).1, (hrange _).2]
    omega

/-- With numerator 0 the error is in proportion to the denominator, as `s` is (R104). -/
theorem absError_zero_num (f k d : Nat) : absError f k 0 d = Nat.dist f k * d := by
  rw [absError_eq_dist, Nat.add_zero, Nat.dist_mul_right]

theorem errorAtMost_zero_num (f k d d' : Nat) : ErrorAtMost f k 0 d 0 d' := by
  rw [ErrorAtMost, absError_zero_num, absError_zero_num, Nat.add_zero, Nat.add_zero, Nat.mul_right_comm]

/-- A least pair with numerator 0 makes `(0, 1)` a least pair. -/
theorem LeastError.zero_one {f k d : Nat} (h : LeastError f k 0 d) : LeastError f k 0 1 := by
  refine ⟨fractionPair_zero_one, fun n' d' h' => ?_⟩
  have hone := (errorAtMost_iff (by decide) h.1.den_pos).mp (errorAtMost_zero_num f k 1 d)
  exact (errorAtMost_iff (by decide) h'.den_pos).mpr (hone.trans (h.relError_le h'))

/-- A result with numerator 0 has denominator 1 (R104). -/
theorem brcFunc_den_of_num_eq_zero {r : DivRound} {f b : Nat} (h : (brcFunc r f b).num = 0) :
    (brcFunc r f b).den = 1 := by
  by_cases hsearch : NoSearch r f b
  · rw [brcFunc_of_noSearch hsearch]
  · obtain ⟨n, d, hres, hleast, htie⟩ := brcFunc_of_search hsearch
    rw [hres] at h ⊢
    obtain rfl : n = 0 := h
    have hpos := hleast.1.den_pos
    have hone := htie 0 1 hleast.zero_one
    exact (by omega : d = 1)

/-- With `K = F` only numerator 0 is a least pair: `(0, 1)` has no error, and a positive numerator has some. -/
theorem LeastError.num_eq_zero_of_exact {f n d : Nat} (hf : 0 < f) (h : LeastError f f n d) : n = 0 := by
  have hzero : absError f f n d = 0 := by
    have hle := h.2 0 1 fractionPair_zero_one
    simpa [ErrorAtMost, absError_zero_num, Nat.dist_self] using hle
  have hprod : f * d = f * (d + n) := Nat.eq_of_dist_eq_zero hzero
  have := Nat.eq_of_mul_eq_mul_left hf hprod
  omega

/-- Both roundings of an exact multiple are exact (R94, R104). -/
theorem candidateDivisor_exact (r : DivRound) {q b : Nat} (hb : 0 < b) : candidateDivisor r (16 * b * q) b = q := by
  have hdiv : 0 < 16 * b := by omega
  cases r with
  | trunc => exact Nat.mul_div_cancel_left q hdiv
  | nearest =>
    rw [candidateDivisor, Nat.mul_add_div hdiv, Nat.div_eq_of_lt (by omega), Nat.add_zero]

/-- An exact multiple of `16 * B` within range has no fraction (R104). -/
theorem brcFunc_exact (r : DivRound) {q b : Nat} (hb : 0 < b) (hq : 1 ≤ q) (hmax : q ≤ 65535) :
    brcFunc r (16 * b * q) b = ⟨q, 0, 1⟩ := by
  have hcand := candidateDivisor_exact r (q := q) hb
  have hf : 0 < 16 * b * q := by positivity
  have hsearch : ¬NoSearch r (16 * b * q) b := by
    rw [NoSearch, hcand]
    omega
  have hscale : rateScale q b = 16 * b * q := Nat.mul_right_comm 16 q b
  obtain ⟨n, d, hres, hleast, -⟩ := brcFunc_of_search hsearch
  rw [hcand] at hres hleast
  rw [hscale] at hleast
  obtain rfl := hleast.num_eq_zero_of_exact hf
  have hden := brcFunc_den_of_num_eq_zero (r := r) (f := 16 * b * q) (b := b) (by rw [hres])
  rw [hres] at hden ⊢
  obtain rfl : d = 1 := hden
  rfl

/-- Settles O20: the pairs of numerator 0 tie, the tie-break takes the least of their denominators, and an exact multiple
leaves no error for a fraction to correct. -/
theorem zeroNumeratorHasDenominatorOne : Obligations.ZeroNumeratorHasDenominatorOne :=
  ⟨errorAtMost_zero_num, fun _ _ _ => brcFunc_den_of_num_eq_zero, fun r _ _ => brcFunc_exact r⟩

/-! ## The width of the search's values (R102) -/

/-- The candidate divisor's multiple is at most half a step above the clock. -/
theorem candidateDivisor_mul_le (r : DivRound) (f b : Nat) : 16 * b * candidateDivisor r f b ≤ f + 8 * b := by
  cases r with
  | trunc => exact (Nat.mul_div_le f (16 * b)).trans (Nat.le_add_right f (8 * b))
  | nearest => exact Nat.mul_div_le (f + 8 * b) (16 * b)

/-- Settles O21: each value is bounded by the one before it and by `d ≤ 15`, `s ≤ 29`. -/
theorem searchArithmeticBounds : Obligations.SearchArithmeticBounds := by
  rintro r f b d0 n d hf hb - rfl ⟨hn, hd⟩
  have hcand := candidateDivisor_mul_le r f b
  have hs : d + n ≤ 29 := by omega
  have hfd : f * d ≤ f * 15 := Nat.mul_le_mul_left f hd
  have hks : rateScale (candidateDivisor r f b) b * (d + n) ≤ (f + 8 * b) * 29 := by
    rw [rateScale, Nat.mul_right_comm 16]
    exact Nat.mul_le_mul hcand hs
  have herr : absError f (rateScale (candidateDivisor r f b) b) n d < 2 ^ 41 := by
    rw [absError]
    omega
  have hes := Nat.mul_le_mul_left (absError f (rateScale (candidateDivisor r f b) b) n d) hs
  refine ⟨by omega, hcand, by omega, hs, by omega, herr, by omega⟩

/-! ## Worked examples (R109) -/

/-- Settles O22: the first example is an exact multiple, the last two are outside the thresholds of R105, and the two
fractions are the search's. -/
theorem workedBaudExamples : Obligations.WorkedBaudExamples :=
  ⟨brcFunc_exact .trunc (q := 10) (b := 9600) (by decide) (by decide) (by decide),
    by decide +kernel, by decide +kernel,
    (sentinelThresholds 1536000 96001 (by decide) (by decide)).1.mpr (.inl (by decide)),
    (sentinelThresholds 1048576 1 (by decide) (by decide)).1.mpr (.inr (by decide))⟩

end Sys2Proof.Machine

/-!
PROOFS. The statements of 41_baud_apply.md about BRC alone: the three outcomes of BRC.APPLY (R111, R118), the ten
transactions and the step that makes them (R112 to R114), and the wait for an acknowledgement (R120).
-/
namespace Sys2Proof.Machine

/-! ## The command (R111) -/

theorem exec_brcApply_of_idle {s : State} (hidle : s.brc.busy = false) :
    exec .brcApply s = .next (s.setBrc (if s.brc.canApply then s.brc.acceptApply else s.brc.skipApply)) := by
  simp [exec, execBrcApply, hidle]

/-- Without an achievable result an idle BRC skips the APPLY (R111). -/
theorem exec_brcApply_of_skipped {s : State} (hidle : s.brc.busy = false)
    (hnone : s.brc.resValid = false ∨ s.brc.resUnach = true) :
    exec .brcApply s = .next (s.setBrc s.brc.skipApply) := by
  have hcan : s.brc.canApply = false := by
    obtain h | h := hnone <;> simp [Brc.canApply, h]
  rw [exec_brcApply_of_idle hidle, hcan]; rfl

/-- An idle BRC with an achievable result accepts the APPLY (R111). -/
theorem exec_brcApply_of_accepted {s : State} (hidle : s.brc.busy = false) (hcan : s.brc.canApply = true) :
    exec .brcApply s = .next (s.setBrc s.brc.acceptApply) := by
  rw [exec_brcApply_of_idle hidle, hcan]; rfl

/-- Settles O23: a busy BRC only makes progress, as at a NOP's edge; an idle one skips or accepts. -/
theorem applyIsSkippedOrAccepted : Obligations.ApplyIsSkippedOrAccepted := by
  intro s
  refine ⟨fun hbusy => (exec_of_busy rfl hbusy).trans (exec_of_busy rfl hbusy).symm, exec_brcApply_of_skipped, ?_⟩
  intro hidle hvalid hunach
  exact exec_brcApply_of_accepted hidle (by simp [Brc.canApply, hvalid, hunach])

/-! ## The table (R112) -/

/-- Settles O25: each row's direction, address and data are read off the table. -/
theorem transactionTable : Obligations.TransactionTable := by
  rintro c b t rfl
  obtain ⟨_, _, _, _, _, _, _, _, _, _, _, _, seq, _, _, _⟩ := b
  refine ⟨?_, ?_, ?_, ?_, ?_, ?_, ?_, ?_, ?_, ?_⟩ <;> (rintro rfl; rfl)

/-- Rows 1 to 10 exist, and the even ones are the writes (R112). -/
theorem busRow_write : ∀ q : BitVec 4, 1#4 ≤ q → q ≤ 10#4 → (busRow q).map BusRow.write = some (!q.getLsbD 0) := by
  decide

theorem isReadRow_of_row {q : BitVec 4} (hlo : 1#4 ≤ q) (hhi : q ≤ 10#4) : isReadRow q = q.getLsbD 0 := by
  obtain ⟨row, hrow, hwrite⟩ := Option.map_eq_some_iff.mp (busRow_write q hlo hhi)
  simp [isReadRow, hrow, hwrite]

theorem busWe_of_row {b : Brc} (hlo : 1#4 ≤ b.seq) (hhi : b.seq ≤ 10#4) : b.busWe = !b.seq.getLsbD 0 := by
  obtain ⟨row, hrow, hwrite⟩ := Option.map_eq_some_iff.mp (busRow_write b.seq hlo hhi)
  simp [Brc.busWe, hrow, hwrite]

/-! ## The transaction step (R113) -/

/-- The issue, with the lock as R113 writes it. -/
theorem Brc.issue_eq (b : Brc) : b.issue = { b with busPend := true, lock := b.lock || decide (b.seq = 1#4) } := by
  by_cases hrow : b.seq = 1#4 <;> simp [Brc.issue, hrow]

/-- The acknowledgement of row 10, a write, ends the operation (R113). -/
theorem Brc.acknowledge_of_last {b : Brc} (hrow : b.seq = 10#4) (c : Config) (rdata : Nat) :
    b.acknowledge c rdata = { b with busPend := false, seq := 0#4, busy := false, done := true } := by
  have hwrite : isReadRow 10#4 = false := by decide
  simp [Brc.acknowledge, Brc.flagsCompleted, hrow, hwrite]

/-- The acknowledgement of a row before row 10: the data of a read row is captured, row 8 releases the lock, and the next
row follows (R113, R121). -/
theorem Brc.acknowledge_of_not_last {b : Brc} (hrow : b.seq ≠ 10#4) (c : Config) (rdata : Nat) :
    b.acknowledge c rdata = { b with
      busTmp := if isReadRow b.seq then rdata % 2 ^ c.regW else b.busTmp
      busPend := false
      lock := b.lock && !decide (b.seq = 8#4)
      seq := b.seq + 1#4 } := by
  by_cases h8 : b.seq = 8#4 <;> simp [Brc.acknowledge, hrow, h8]

/-- The edge of any BRC command while an APPLY is in progress (R113, R123). -/
theorem exec_of_applying {i : Instr} {s : State} (hi : i.domain = .brc) (hbusy : s.brc.busy = true)
    (hop : s.brc.op = .apply) :
    exec i s = .next (s.setBrc (s.brc.transactionStep s.cfg s.ports.busAck s.ports.busRdata)) := by
  rw [exec_of_busy hi hbusy, brcProgress_of_apply hbusy hop]

theorem transactionStep_issue {c : Config} {ack : Bool} {rdata : Nat} {b : Brc} (hpend : b.busPend = false) :
    b.transactionStep c ack rdata = b.issue := by
  simp [Brc.transactionStep, hpend]

theorem transactionStep_acknowledge {c : Config} {rdata : Nat} {b : Brc} (hpend : b.busPend = true) :
    b.transactionStep c true rdata = b.acknowledge c rdata := by
  simp [Brc.transactionStep, hpend]

theorem transactionStep_hold {c : Config} {rdata : Nat} {b : Brc} (hpend : b.busPend = true) :
    b.transactionStep c false rdata = b := by
  simp [Brc.transactionStep, hpend]

/-- While BRC waits and no acknowledgement comes, the edge of any BRC command changes nothing (R113, R120). -/
theorem exec_of_waiting {i : Instr} {s : State} (hi : i.domain = .brc) (hwait : s.brc.waitsForAck = true)
    (hack : s.ports.busAck = false) : exec i s = .next s := by
  simp only [Brc.waitsForAck, Bool.and_eq_true, beq_iff_eq] at hwait
  obtain ⟨⟨hbusy, hop⟩, hpend⟩ := hwait
  rw [exec_of_applying hi hbusy hop, hack, transactionStep_hold hpend, setBrc_self]

/-- Settles O26: the three branches of the step; the read rows are the odd ones, and only row 10 ends the operation. -/
theorem transactionStepIssuesCompletesOrHolds : Obligations.TransactionStepIssuesCompletesOrHolds := by
  refine ⟨fun s i hi hbusy hop hlo hhi => ⟨fun hpend => ?_, fun hpend hack => ?_, fun hpend hack => ?_⟩,
    fun c b hlo hhi => ⟨rfl, rfl, busWe_of_row hlo hhi, fun hpend => ⟨fun a htr => ?_, fun a v htr => ?_⟩⟩⟩
  · rw [exec_of_applying hi hbusy hop, transactionStep_issue hpend, Brc.issue_eq]; rfl
  · rw [exec_of_applying hi hbusy hop, hack, transactionStep_acknowledge hpend, State.setBrc]
    by_cases hrow : s.brc.seq = 10#4
    · simp [Brc.acknowledge_of_last hrow, hrow]
    · simp [Brc.acknowledge_of_not_last hrow, hrow, isReadRow_of_row hlo hhi, hbusy]
  · exact exec_of_waiting hi (by simp [Brc.waitsForAck, hbusy, hop, hpend]) hack
  · simp [Brc.busAddr, htr, hpend]
  · simp [Brc.busAddr, Brc.busWdata, htr, hpend]

/-! ## Runs that leave BRC as it is (R118, R120) -/

/-- In any state out of reset that holds the registers `b`, the step `e` changes at most the bus inputs, and takes itself
off the script. -/
def Brc.StillAt (b : Brc) (e : HostStep) : Prop :=
  ∀ u : State, configRefusal u.cfg = none → u.ports.crstN = true → u.brc = b →
    ∃ rdata, step (u.setScript [e]) = .next ((u.setScript []).driveBus false rdata)

/-- A run of such steps leaves BRC's registers as they were. -/
theorem play_of_stillAt {b : Brc} {es : List HostStep} (hes : ∀ e ∈ es, b.StillAt e) {s : State}
    (hc : configRefusal s.cfg = none) (hrst : s.ports.crstN = true) (hb : s.brc = b) :
    ∃ t, play es s = .next t ∧ t.brc = b := by
  induction es generalizing s with
  | nil => exact ⟨s, rfl, hb⟩
  | cons e es ih =>
    obtain ⟨he, hes'⟩ := List.forall_mem_cons.mp hes
    obtain ⟨rdata, hstep⟩ := he s hc hrst hb
    rw [play_cons_of_next hstep]
    exact ih hes' hc hrst hb

/-- A BRC.NOP's edge leaves an idle BRC as it is (R90). -/
theorem stillAt_nop_of_idle {b : Brc} (hidle : b.busy = false) (f f' : Word32) (rdata : Nat) :
    b.StillAt (.cclk 0b00#2 f f' false rdata) := by
  rintro u hc hrst rfl
  exact ⟨rdata, (step_silent_cclk rdata hc hrst rfl).trans ((brcNopOnlyLetsWorkProgress _).1 hidle)⟩

/-- An edge without an acknowledgement leaves a waiting BRC as it is, whatever its word (R120). -/
theorem stillAt_of_waiting {b : Brc} (hwait : b.waitsForAck = true) {e : HostStep} (he : silentBrcEdge e = true) :
    b.StillAt e := by
  rintro u hc hrst rfl
  obtain ⟨i, rdata, hi, hstep⟩ := step_of_silentBrcEdge hc hrst he
  exact ⟨rdata, hstep.trans (exec_of_waiting hi hwait rfl)⟩

/-- Settles O24: the APPLY is skipped at its edge, which leaves BRC idle, and an idle BRC stays as it is. -/
theorem skippedApplyTouchesNoRegister : Obligations.SkippedApplyTouchesNoRegister := by
  intro s f b rdata es hc hrst hinv hidle hnone hes
  obtain ⟨-, hpend, hlock⟩ := hinv.idle hidle
  have hskip : step (s.setScript [.cclk 0b10#2 f b false rdata]) =
      .next (((s.setScript []).driveBus false rdata).setBrc s.brc.skipApply) :=
    (step_silent_cclk rdata hc hrst rfl).trans (exec_brcApply_of_skipped hidle hnone)
  have hstill : ∀ e ∈ es, s.brc.skipApply.StillAt e := by
    intro e he
    obtain ⟨f', b', rdata', rfl⟩ := hes e he
    exact stillAt_nop_of_idle (b := s.brc.skipApply) hidle f' b' rdata'
  rw [play_cons_of_next hskip]
  obtain ⟨t, hplay, ht⟩ := play_of_stillAt hstill (s := ((s.setScript []).driveBus false rdata).setBrc s.brc.skipApply)
    hc hrst rfl
  exact ⟨t, hplay, ht ▸ hpend, ht ▸ hlock, ht ▸ rfl, ht ▸ rfl⟩

/-- Settles O27: every edge leaves the waiting BRC as it is, and in rows 1 to 8 a pending transaction has the lock. -/
theorem unacknowledgedTransactionHoldsForEver : Obligations.UnacknowledgedTransactionHoldsForEver := by
  intro s es hc hrst hinv hwait hes
  obtain ⟨t, hplay, ht⟩ := play_of_stillAt (fun e he => stillAt_of_waiting hwait (hes e he)) hc hrst rfl
  simp only [Brc.waitsForAck, Bool.and_eq_true] at hwait
  obtain ⟨⟨hbusy, -⟩, hpend⟩ := hwait
  refine ⟨t, hplay, ht, ht ▸ hbusy, fun hrow => ?_⟩
  rw [ht, Brc.busLock]
  exact (hinv.lock_iff_of_pending hpend).mpr hrow

/-! ## The write data, bit by bit (R77, R114) -/

section WriteData

variable {w : Nat} (v : BitVec w)

/-- The DLAB mask is bit 7 alone (R77). -/
theorem dlabMask_getLsbD (j : Nat) : (0x80#w).getLsbD j = (decide (j < w) && decide (7 = j)) := by
  rw [BitVec.getLsbD_ofNat, ← Nat.testBit_two_pow]

theorem setDlab_getLsbD {j : Nat} (hj : j < w) : (setDlab v).getLsbD j = if j = 7 then true else v.getLsbD j := by
  rw [setDlab, BitVec.getLsbD_or, dlabMask_getLsbD]
  by_cases h7 : j = 7
  · subst h7; simp [hj]
  · simp [h7, Ne.symm h7]

theorem clearDlab_getLsbD {j : Nat} (hj : j < w) : (clearDlab v).getLsbD j = if j = 7 then false else v.getLsbD j := by
  rw [clearDlab, BitVec.getLsbD_and, BitVec.getLsbD_not, dlabMask_getLsbD]
  by_cases h7 : j = 7
  · subst h7; simp [hj]
  · simp [h7, hj, Ne.symm h7]

theorem insertByte_getLsbD (x : BitVec 8) {j : Nat} (hj : j < w) :
    (insertByte v x).getLsbD j = if j < 8 then x.getLsbD j else v.getLsbD j := by
  have hmask : (0xFF#w).getLsbD j = decide (j < 8) := by
    rw [BitVec.getLsbD_ofNat, show (0xFF : Nat) = 2 ^ 8 - 1 from rfl, Nat.testBit_two_pow_sub_one]
    simp [hj]
  rw [insertByte, BitVec.getLsbD_or, BitVec.getLsbD_and, BitVec.getLsbD_not, hmask, BitVec.getLsbD_setWidth]
  by_cases h8 : j < 8
  · simp [h8, hj]
  · simp [h8, hj, BitVec.getLsbD_of_ge x j (Nat.le_of_not_lt h8)]

end WriteData

/-! The write data column of R112, row by row. -/

theorem writeData_of_row2 {c : Config} {b : Brc} (h : b.seq = 2#4) : b.writeData c = some (setDlab (b.tmp c)) := by
  simp [Brc.writeData, h]

theorem writeData_of_row4 {c : Config} {b : Brc} (h : b.seq = 4#4) :
    b.writeData c = some (insertByte (b.tmp c) b.dllImg) := by
  simp [Brc.writeData, h]

theorem writeData_of_row6 {c : Config} {b : Brc} (h : b.seq = 6#4) :
    b.writeData c = some (insertByte (b.tmp c) b.dlmImg) := by
  simp [Brc.writeData, h]

theorem writeData_of_row8 {c : Config} {b : Brc} (h : b.seq = 8#4) : b.writeData c = some (clearDlab (b.tmp c)) := by
  simp [Brc.writeData, h]

theorem writeData_of_row10 {c : Config} {b : Brc} (h : b.seq = 10#4) :
    b.writeData c = some (insertByte (b.tmp c) b.fdrImg) := by
  simp [Brc.writeData, h]

theorem dllImg_getLsbD (b : Brc) {j : Nat} (hj : j < 8) : b.dllImg.getLsbD j = b.resDl.getLsbD j := by
  simp [Brc.dllImg, hj]

theorem dlmImg_getLsbD (b : Brc) {j : Nat} (hj : j < 8) : b.dlmImg.getLsbD j = b.resDl.getLsbD (8 + j) := by
  simp [Brc.dlmImg, hj]

theorem fdrImg_getLsbD (b : Brc) (j : Nat) :
    b.fdrImg.getLsbD j = if j < 4 then b.resDivadd.getLsbD j else b.resMul.getLsbD (j - 4) :=
  BitVec.getLsbD_append

/-- The read row of the same register stands before each write row (R114). -/
theorem busRow_before_write : ∀ q : BitVec 4, (busRow q).any BusRow.write = true →
    busRow (q - 1#4) = (busRow q).map fun row => { row with write := false } := by decide

/-- Settles O28: each write row's data is the DLAB update or the byte insertion of the table, read bit by bit. -/
theorem writesPreserveOtherBits : Obligations.WritesPreserveOtherBits := by
  intro c b j hj
  refine ⟨fun v hv => ⟨fun h => ?_, fun h => ?_, fun h => ?_, fun h => ?_, fun h => ?_⟩, fun row hrow hwrite => ?_⟩
  · cases (writeData_of_row2 h).symm.trans hv
    exact setDlab_getLsbD _ hj
  · cases (writeData_of_row4 h).symm.trans hv
    rw [insertByte_getLsbD _ _ hj]
    exact if_ctx_congr Iff.rfl (dllImg_getLsbD b) (fun _ => rfl)
  · cases (writeData_of_row6 h).symm.trans hv
    rw [insertByte_getLsbD _ _ hj]
    exact if_ctx_congr Iff.rfl (dlmImg_getLsbD b) (fun _ => rfl)
  · cases (writeData_of_row8 h).symm.trans hv
    exact clearDlab_getLsbD _ hj
  · cases (writeData_of_row10 h).symm.trans hv
    rw [insertByte_getLsbD _ _ hj, fdrImg_getLsbD]
    by_cases h4 : j < 4
    · simp [h4, Nat.lt_trans h4]
    · simp [h4]
  · simpa [hrow] using busRow_before_write b.seq (by simp [hrow, hwrite])

end Sys2Proof.Machine

/-!
PROOFS. An APPLY beside the plain-register slave (41_baud_apply.md R112 to R117): where the sequence stands after each
edge, what the slave holds there, and the end state.
-/
namespace Sys2Proof.Machine

/-! ## The sequencer, edge by edge (R113, R121) -/

/-- An accepted APPLY that has made `n` of its twenty edges, an issue and a completion of each row (R113). -/
structure ApplyAt (n : Nat) (b : Brc) : Prop where
  le : n ≤ 20
  op : b.op = .apply
  busy : b.busy = decide (n < 20)
  done : b.done = decide (n = 20)
  seq : b.seq = if n = 20 then 0#4 else BitVec.ofNat 4 (n / 2 + 1)
  pend : b.busPend = decide (n % 2 = 1)
  lock : b.lock = decide (0 < n ∧ n < 16)

/-- Where an edge takes the sequence: an issue needs nothing, a completion a slave that is ready (R113, R199). -/
def nextApplyEdge (n : Nat) (ready : Bool) : Nat := if n < 20 ∧ (n % 2 = 0 ∨ ready = true) then n + 1 else n

theorem applyAt_acceptApply (b : Brc) : ApplyAt 0 b.acceptApply := ⟨by decide, rfl, rfl, rfl, rfl, rfl, rfl⟩

/-- The row an APPLY in progress is at (R112). -/
theorem ApplyAt.seq_eq_iff {n : Nat} {b : Brc} (h : ApplyAt n b) (hn : n < 20) {r : Nat} (hr : r < 16) :
    b.seq = BitVec.ofNat 4 r ↔ n / 2 + 1 = r := by
  rw [h.seq, if_neg hn.ne, ← BitVec.toNat_inj, BitVec.toNat_ofNat, BitVec.toNat_ofNat]
  omega

theorem ApplyAt.issue {n : Nat} {b : Brc} (h : ApplyAt n b) (hn : n < 20) (heven : n % 2 = 0) :
    ApplyAt (n + 1) b.issue where
  le := hn
  op := h.op
  busy := by rw [Brc.issue_eq, h.busy]; exact decide_eq_decide.mpr (by omega)
  done := by rw [Brc.issue_eq, h.done]; exact decide_eq_decide.mpr (by omega)
  seq := by
    rw [Brc.issue_eq, h.seq, if_neg hn.ne, if_neg (by omega), show (n + 1) / 2 = n / 2 by omega]
  pend := (decide_eq_true (by omega)).symm
  lock := by
    rw [Brc.issue_eq, h.lock, ← Bool.decide_or]
    exact decide_eq_decide.mpr (by rw [h.seq_eq_iff hn (by decide)]; omega)

theorem ApplyAt.acknowledge {n : Nat} {b : Brc} (h : ApplyAt n b) (hn : n < 20) (hodd : n % 2 = 1) (c : Config)
    (rdata : Nat) : ApplyAt (n + 1) (b.acknowledge c rdata) := by
  have hlast := h.seq_eq_iff hn (r := 10) (by decide)
  have hunlock := h.seq_eq_iff hn (r := 8) (by decide)
  by_cases hrow : b.seq = 10#4
  · obtain rfl : n = 19 := by have := hlast.mp hrow; omega
    rw [Brc.acknowledge_of_last hrow]
    exact ⟨le_rfl, h.op, rfl, rfl, rfl, rfl, h.lock⟩
  · have hn' : n + 1 < 20 := by have := mt hlast.mpr hrow; omega
    rw [Brc.acknowledge_of_not_last hrow]
    exact {
      le := hn
      op := h.op
      busy := h.busy.trans (decide_eq_decide.mpr (by omega))
      done := h.done.trans (decide_eq_decide.mpr (by omega))
      seq := by
        rw [h.seq, if_neg hn.ne, if_neg hn'.ne, show (n + 1) / 2 = n / 2 + 1 by omega]
        exact (BitVec.ofNat_add (n / 2 + 1) 1).symm
      pend := (decide_eq_false (by omega)).symm
      lock := by
        rw [h.lock, ← decide_not, ← Bool.decide_and]
        exact decide_eq_decide.mpr (by rw [hunlock]; omega) }

/-! ## An edge beside the slave (R113, R199) -/

section Edge

variable (c : Config) (ready : Bool) (p : State × Uart c.regW)

theorem uartEdge_cfg : (uartEdge c ready p).1.cfg = p.1.cfg := rfl

theorem uartEdge_brc : (uartEdge c ready p).1.brc =
    p.1.brc.progress p.1.cfg (p.1.brc.ackWhen ready) (p.2.reply c (p.1.brc.transaction c)).toNat := rfl

theorem uartEdge_uart : (uartEdge c ready p).2 =
    if p.1.brc.ackWhen ready then p.2.perform c (p.1.brc.transaction c) else p.2 := rfl

end Edge

/-- What an edge beside the slave does to an APPLY: nothing, at the end or while the slave is not ready; an issue; or a
completion, with the slave's reply, as the slave performs the transaction. -/
theorem ApplyAt.edge_cases {c : Config} {p : State × Uart c.regW} {n : Nat} (h : ApplyAt n p.1.brc) (ready : Bool) :
    (nextApplyEdge n ready = n ∧ p.1.brc.ackWhen ready = false ∧ (uartEdge c ready p).1.brc = p.1.brc ∧
      (uartEdge c ready p).2 = p.2) ∨
    (n < 20 ∧ n % 2 = 0 ∧ nextApplyEdge n ready = n + 1 ∧ p.1.brc.ackWhen ready = false ∧
      (uartEdge c ready p).1.brc = p.1.brc.issue ∧ (uartEdge c ready p).2 = p.2) ∨
    (n < 20 ∧ n % 2 = 1 ∧ nextApplyEdge n ready = n + 1 ∧ p.1.brc.ackWhen ready = true ∧
      (uartEdge c ready p).1.brc =
        p.1.brc.acknowledge p.1.cfg (p.2.reply c (p.1.brc.transaction c)).toNat ∧
      (uartEdge c ready p).2 = p.2.perform c (p.1.brc.transaction c)) := by
  have hle := h.le
  have hack : p.1.brc.ackWhen ready = (ready && decide (n % 2 = 1)) := by rw [Brc.ackWhen, Brc.busReq, h.pend]
  rw [uartEdge_brc, uartEdge_uart, hack]
  by_cases hn : n < 20
  · have hbusy : p.1.brc.busy = true := by simp [h.busy, hn]
    obtain heven | hodd := Nat.mod_two_eq_zero_or_one n
    · have hpend : p.1.brc.busPend = false := by simp [h.pend, heven]
      exact .inr (.inl ⟨hn, heven, by simp [nextApplyEdge, hn, heven], by simp [heven],
        by simp [Brc.progress, hbusy, h.op, transactionStep_issue hpend], by simp [heven]⟩)
    · have hpend : p.1.brc.busPend = true := by simp [h.pend, hodd]
      cases ready with
      | false => exact .inl ⟨by simp [nextApplyEdge, hodd], rfl,
          by simp [Brc.progress, hbusy, h.op, transactionStep_hold hpend], rfl⟩
      | true => exact .inr (.inr ⟨hn, hodd, by simp [nextApplyEdge, hn], by simp [hodd],
          by simp [Brc.progress, hbusy, h.op, hodd, transactionStep_acknowledge hpend], by simp [hodd]⟩)
  · obtain rfl : n = 20 := by omega
    exact .inl ⟨rfl, by simp, Brc.progress_idle h.busy, by simp⟩

/-- An edge beside the slave moves the sequence on or leaves it where it stands. -/
theorem ApplyAt.edge {c : Config} {p : State × Uart c.regW} {n : Nat} (h : ApplyAt n p.1.brc) (ready : Bool) :
    ApplyAt (nextApplyEdge n ready) (uartEdge c ready p).1.brc := by
  obtain ⟨hnext, -, hbrc, -⟩ | ⟨hn, heven, hnext, -, hbrc, -⟩ | ⟨hn, hodd, hnext, -, hbrc, -⟩ := h.edge_cases ready <;>
    rw [hnext, hbrc]
  · exact h
  · exact h.issue hn heven
  · exact h.acknowledge hn hodd _ _

/-- The slave acknowledges exactly at the completions, every second edge of the sequence. -/
theorem ApplyAt.ackWhen_toNat {c : Config} {p : State × Uart c.regW} {n : Nat} (h : ApplyAt n p.1.brc) (ready : Bool) :
    (p.1.brc.ackWhen ready).toNat + n / 2 = nextApplyEdge n ready / 2 := by
  obtain ⟨hnext, hack, -⟩ | ⟨-, heven, hnext, hack, -⟩ | ⟨-, hodd, hnext, hack, -⟩ := h.edge_cases ready <;>
    rw [hnext, hack]
  · exact Nat.zero_add _
  · rw [Bool.toNat_false]; omega
  · rw [Bool.toNat_true]; omega

/-! ## A run beside the slave -/

theorem ApplyAt.run {c : Config} {p : State × Uart c.regW} {n : Nat} (h : ApplyAt n p.1.brc) (ready : List Bool) :
    ApplyAt (ready.foldl nextApplyEdge n) (uartRun c ready p).1.brc := by
  induction ready generalizing p n with
  | nil => exact h
  | cons r ready ih => exact ih (h.edge r)

theorem ApplyAt.acknowledged_eq {c : Config} {p : State × Uart c.regW} {n : Nat} (h : ApplyAt n p.1.brc)
    (ready : List Bool) : acknowledged c ready p + n / 2 = ready.foldl nextApplyEdge n / 2 := by
  induction ready generalizing p n with
  | nil => exact Nat.zero_add _
  | cons r ready ih => rw [acknowledged, List.foldl_cons, ← ih (h.edge r), ← h.ackWhen_toNat r]; ring

/-- Each edge moves the sequence on by at most one. -/
theorem foldl_nextApplyEdge_le (ready : List Bool) (n : Nat) : ready.foldl nextApplyEdge n ≤ n + ready.length := by
  induction ready generalizing n with
  | nil => exact le_rfl
  | cons r ready ih =>
    have hstep : nextApplyEdge n r ≤ n + 1 := by rw [nextApplyEdge]; split <;> omega
    have hrest := ih (nextApplyEdge n r)
    rw [List.foldl_cons, List.length_cons]
    omega

/-- Each edge at which the slave is ready moves an unfinished sequence on. -/
theorem le_foldl_nextApplyEdge (ready : List Bool) (n : Nat) :
    min 20 (n + ready.count true) ≤ ready.foldl nextApplyEdge n := by
  induction ready generalizing n with
  | nil => exact min_le_right _ _
  | cons r ready ih =>
    have hstep : min 20 (n + r.toNat) ≤ nextApplyEdge n r := by
      cases r with
      | false => rw [nextApplyEdge, Bool.toNat_false]; split <;> omega
      | true => simp only [nextApplyEdge, Bool.toNat_true, or_true, and_true]; split <;> omega
    have hcount : (r :: ready).count true = ready.count true + r.toNat := by cases r <;> simp
    have hrest := ih (nextApplyEdge n r)
    rw [List.foldl_cons, hcount]
    omega

/-- An APPLY is finished when it has made its twenty edges. -/
theorem ApplyAt.busy_eq_false_iff {n : Nat} {b : Brc} (h : ApplyAt n b) : b.busy = false ↔ n = 20 := by
  have hle := h.le
  rw [h.busy, decide_eq_false_iff_not]
  omega

/-- Settles O30: the acknowledgements are half of the sequence's edges, of which there are twenty, and a ready edge always
makes one. -/
theorem applyFinishesWhenAcknowledged : Obligations.ApplyFinishesWhenAcknowledged := by
  intro s u t ready hidle hcan hx
  cases (exec_brcApply_of_accepted hidle hcan).symm.trans hx
  have hstart : ApplyAt 0 (s.setBrc s.brc.acceptApply, u).1.brc := applyAt_acceptApply s.brc
  have hend := hstart.run ready
  have hacks := hstart.acknowledged_eq ready
  have hupper := foldl_nextApplyEdge_le ready 0
  have hlower := le_foldl_nextApplyEdge ready 0
  have hle := hend.le
  rw [hend.busy_eq_false_iff]
  refine ⟨by omega, by omega, fun hlen => ?_, fun hcount => by omega, fun h20 => ?_⟩
  · rw [hend.busy]
    exact decide_eq_true (by omega)
  · rw [h20] at hend
    exact ⟨hend.done, hend.seq, hend.pend, hend.lock⟩

end Sys2Proof.Machine

/-!
PROOFS. The end state of an APPLY at the slave (41_baud_apply.md R114, R116, R117): each read row and the write row after
it are one read-modify-write of one register, and the five of them make the UART that R116 describes.
-/
namespace Sys2Proof.Machine

/-! ## The registers the slave shows BRC (R43, R44, R52) -/

/-- One of the four registers BRC reaches. -/
def Uart.reg {w : Nat} (u : Uart w) : BusTarget → BitVec w
  | .lcr => u.lcr
  | .dll => u.dll
  | .dlm => u.dlm
  | .fdr => u.fdr

def Uart.setReg {w : Nat} (u : Uart w) (t : BusTarget) (v : BitVec w) : Uart w :=
  match t with
  | .lcr => { u with lcr := v }
  | .dll => { u with dll := v }
  | .dlm => { u with dlm := v }
  | .fdr => { u with fdr := v }

/-- BRC reaches the register at its address: LCR and FDR always, DLL and DLM with DLAB 1 (R44). -/
def Uart.Shows {w : Nat} (u : Uart w) (t : BusTarget) : Prop := t = .dll ∨ t = .dlm → u.dlab = true

section Slave

variable {c : Config} (hapart : TargetsApart c) {u : Uart c.regW} {t : BusTarget} (ht : u.Shows t)
include hapart

/-- A target's address is that of an offset among the four only where the offset is its own. -/
theorem TargetsApart.eq_busAddress_iff (t : BusTarget) :
    (targetAddress c t = busAddress c c.offLcr ↔ t = .lcr) ∧ (targetAddress c t = busAddress c c.offDll ↔ t = .dll) ∧
    (targetAddress c t = busAddress c c.offDlm ↔ t = .dlm) ∧ (targetAddress c t = busAddress c c.offFdr ↔ t = .fdr) :=
  ⟨⟨hapart t .lcr, congrArg (targetAddress c)⟩, ⟨hapart t .dll, congrArg (targetAddress c)⟩,
    ⟨hapart t .dlm, congrArg (targetAddress c)⟩, ⟨hapart t .fdr, congrArg (targetAddress c)⟩⟩

include ht

theorem readAt_targetAddress : u.readAt c (targetAddress c t) = some (u.reg t) := by
  obtain ⟨hlcr, hdll, hdlm, hfdr⟩ := hapart.eq_busAddress_iff t
  simp only [Uart.readAt, hlcr, hdll, hdlm, hfdr]
  cases t with
  | lcr | fdr => rfl
  | dll | dlm => simp [ht (by simp), Uart.reg]

theorem writeAt_targetAddress (v : BitVec c.regW) : u.writeAt c (targetAddress c t) v = u.setReg t v := by
  obtain ⟨hlcr, hdll, hdlm, hfdr⟩ := hapart.eq_busAddress_iff t
  simp only [Uart.writeAt, hlcr, hdll, hdlm, hfdr]
  cases t with
  | lcr | fdr => rfl
  | dll | dlm => simp [ht (by simp), Uart.setReg]

end Slave

/-! ## The five read-modify-writes (R112, R114) -/

/-- The register that rows `2 j + 1` and `2 j + 2` read and write (R112). -/
def rmwTarget : Nat → BusTarget
  | 0 => .lcr
  | 1 => .dll
  | 2 => .dlm
  | 3 => .lcr
  | _ => .fdr

/-- What row `2 j + 2` makes of the value read in row `2 j + 1` (R112). -/
def Brc.rmw (b : Brc) (j : Nat) {w : Nat} (v : BitVec w) : BitVec w :=
  match j with
  | 0 => setDlab v
  | 1 => insertByte v b.dllImg
  | 2 => insertByte v b.dlmImg
  | 3 => clearDlab v
  | _ => insertByte v b.fdrImg

/-- What the slave holds after the first `j` pairs of rows of an APPLY. -/
def Uart.afterPairs {w : Nat} (u : Uart w) (b : Brc) : Nat → Uart w
  | 0 => u
  | j + 1 => (u.afterPairs b j).setReg (rmwTarget j) (b.rmw j ((u.afterPairs b j).reg (rmwTarget j)))

theorem transaction_of_read {c : Config} {b : Brc} {j : Nat} (hj : j < 5) (hseq : b.seq = BitVec.ofNat 4 (2 * j + 1)) :
    b.transaction c = some (.read (targetAddress c (rmwTarget j))) := by
  obtain ⟨_, _, _, _, _, _, _, _, _, _, _, _, seq, _, _, _⟩ := b
  cases hseq
  interval_cases j <;> rfl

theorem transaction_of_write {c : Config} {b : Brc} {j : Nat} (hj : j < 5) (hseq : b.seq = BitVec.ofNat 4 (2 * j + 2)) :
    b.transaction c = some (.write (targetAddress c (rmwTarget j)) (b.rmw j (b.tmp c))) := by
  obtain ⟨_, _, _, _, _, _, _, _, _, _, _, _, seq, _, _, _⟩ := b
  cases hseq
  interval_cases j <;> rfl

theorem isReadRow_of_read {j : Nat} (hj : j < 5) : isReadRow (BitVec.ofNat 4 (2 * j + 1)) = true := by
  interval_cases j <;> rfl

/-- DLAB is 1 by BRC's own row 2 when the rows of DLL and DLM are reached (R112). -/
theorem afterPairs_shows {w : Nat} (hw : 8 ≤ w) (u : Uart w) (b : Brc) (j : Nat) :
    (u.afterPairs b j).Shows (rmwTarget j) := by
  have hset : (setDlab u.lcr).getLsbD 7 = true := setDlab_getLsbD _ hw
  match j with
  | 0 | 3 | _ + 4 => rintro (h | h) <;> cases h
  | 1 | 2 => exact fun _ => hset

theorem clearDlab_setDlab {w : Nat} (v : BitVec w) : clearDlab (setDlab v) = clearDlab v := by
  refine BitVec.eq_of_getLsbD_eq fun j hj => ?_
  rw [clearDlab_getLsbD _ hj, clearDlab_getLsbD _ hj, setDlab_getLsbD _ hj]
  by_cases h7 : j = 7 <;> simp [h7]

/-- The ten rows make the UART of R116. -/
theorem afterPairs_five {w : Nat} (u : Uart w) (b : Brc) : u.afterPairs b 5 = u.applied b := by
  rw [Uart.applied, ← clearDlab_setDlab]; rfl

/-! ## The result held during an APPLY (R123) -/

/-- What an APPLY uses of BRC's registers (R111). -/
def Brc.heldResult (b : Brc) : BitVec 16 × BitVec 4 × BitVec 4 × Bool := (b.resDl, b.resDivadd, b.resMul, b.canApply)

theorem issue_heldResult (b : Brc) : b.issue.heldResult = b.heldResult := rfl

theorem acknowledge_heldResult (c : Config) (rdata : Nat) (b : Brc) :
    (b.acknowledge c rdata).heldResult = b.heldResult := by
  by_cases hrow : b.seq = 10#4
  · rw [Brc.acknowledge_of_last hrow]; rfl
  · rw [Brc.acknowledge_of_not_last hrow]; rfl

section HeldResult

variable {b b' : Brc} (h : b.heldResult = b'.heldResult)
include h

theorem canApply_congr : b.canApply = b'.canApply := congrArg (fun r => r.2.2.2) h

theorem images_congr : b.dllImg = b'.dllImg ∧ b.dlmImg = b'.dlmImg ∧ b.fdrImg = b'.fdrImg := by
  simp only [Brc.heldResult, Prod.mk.injEq] at h
  obtain ⟨hdl, hnum, hden, -⟩ := h
  simp only [Brc.dllImg, Brc.dlmImg, Brc.fdrImg, hdl, hnum, hden, and_self]

theorem rmw_congr (j : Nat) {w : Nat} (v : BitVec w) : b.rmw j v = b'.rmw j v := by
  obtain ⟨hdll, hdlm, hfdr⟩ := images_congr h
  unfold Brc.rmw
  split <;> simp only [hdll, hdlm, hfdr]

theorem applied_congr {w : Nat} (u : Uart w) : u.applied b = u.applied b' := by
  obtain ⟨hdll, hdlm, hfdr⟩ := images_congr h
  rw [Uart.applied, hdll, hdlm, hfdr, Uart.applied]

end HeldResult

/-! ## BRC and the slave, edge by edge -/

/-- An APPLY of the result of `b₀` that has made `n` of its twenty edges, beside a slave that held `u₀`. -/
structure UartAt (c : Config) (b₀ : Brc) (u₀ : Uart c.regW) (n : Nat) (p : State × Uart c.regW) : Prop where
  cfg : p.1.cfg = c
  sequencer : ApplyAt n p.1.brc
  result : p.1.brc.heldResult = b₀.heldResult
  /-- The slave has performed the pairs of rows completed so far; a read changes nothing. -/
  uart : p.2 = u₀.afterPairs b₀ (n / 4)
  /-- Between a read row and the completion of its write row, `bus_tmp` is the register's value. -/
  captured : 2 ≤ n % 4 → p.1.brc.tmp c = p.2.reg (rmwTarget (n / 4))

section Edge

variable {c : Config} {b₀ : Brc} {u₀ : Uart c.regW} {n : Nat} {p : State × Uart c.regW}

theorem uartAt_acceptApply {s : State} (hcfg : s.cfg = c) (u : Uart c.regW) :
    UartAt c s.brc u 0 (s.setBrc s.brc.acceptApply, u) :=
  ⟨hcfg, applyAt_acceptApply s.brc, rfl, rfl, nofun⟩

theorem UartAt.shows (h : UartAt c b₀ u₀ n p) (hw : 8 ≤ c.regW) : p.2.Shows (rmwTarget (n / 4)) :=
  h.uart ▸ afterPairs_shows hw u₀ b₀ (n / 4)

/-- The transaction of a read row: the slave replies with its register and stays as it is. -/
theorem UartAt.read_row (h : UartAt c b₀ u₀ n p) (hapart : TargetsApart c) (hw : 8 ≤ c.regW) (hn : n < 20)
    (hread : n % 4 = 1) :
    isReadRow p.1.brc.seq = true ∧ p.2.reply c (p.1.brc.transaction c) = p.2.reg (rmwTarget (n / 4)) ∧
    p.2.perform c (p.1.brc.transaction c) = p.2 := by
  have hseq := (h.sequencer.seq_eq_iff hn (r := 2 * (n / 4) + 1) (by omega)).mpr (by omega)
  rw [transaction_of_read (by omega) hseq]
  exact ⟨hseq ▸ isReadRow_of_read (by omega), congrArg (Option.getD · 0) (readAt_targetAddress hapart (h.shows hw)), rfl⟩

/-- The transaction of a write row: the slave's register takes the updated value. -/
theorem UartAt.write_row (h : UartAt c b₀ u₀ n p) (hapart : TargetsApart c) (hw : 8 ≤ c.regW) (hn : n < 20)
    (hwrite : n % 4 = 3) : p.2.perform c (p.1.brc.transaction c) = u₀.afterPairs b₀ (n / 4 + 1) := by
  have hseq := (h.sequencer.seq_eq_iff hn (r := 2 * (n / 4) + 2) (by omega)).mpr (by omega)
  rw [transaction_of_write (by omega) hseq, Uart.perform, writeAt_targetAddress hapart (h.shows hw),
    h.captured (by omega), rmw_congr h.result, h.uart]
  rfl

/-- A read row's acknowledgement puts the slave's reply into `bus_tmp` (R113). -/
theorem tmp_acknowledge_read {b : Brc} (hread : isReadRow b.seq = true) (v : BitVec c.regW) :
    (b.acknowledge c v.toNat).tmp c = v := by
  have hrow : b.seq ≠ 10#4 := fun h => absurd (h ▸ hread) (by decide)
  rw [Brc.acknowledge_of_not_last hrow, Brc.tmp, if_pos hread, Nat.mod_eq_of_lt v.isLt, BitVec.ofNat_toNat,
    BitVec.setWidth_eq]

/-- An edge beside the slave keeps the account of what the slave holds. -/
theorem UartAt.edge (h : UartAt c b₀ u₀ n p) (hapart : TargetsApart c) (hw : 8 ≤ c.regW) (ready : Bool) :
    UartAt c b₀ u₀ (nextApplyEdge n ready) (uartEdge c ready p) := by
  have hcfg : (uartEdge c ready p).1.cfg = c := h.cfg
  have hseq := h.sequencer.edge (c := c) ready
  obtain ⟨hnext, -, hbrc, huart⟩ | ⟨hn, heven, hnext, -, hbrc, huart⟩ | ⟨hn, hodd, hnext, -, hbrc, huart⟩ :=
    h.sequencer.edge_cases ready <;> rw [hnext] at hseq ⊢
  · exact ⟨hcfg, hseq, hbrc ▸ h.result, huart ▸ h.uart, hbrc ▸ huart ▸ h.captured⟩
  · have hdiv : (n + 1) / 4 = n / 4 := by omega
    refine ⟨hcfg, hseq, hbrc ▸ h.result, by rw [huart, hdiv]; exact h.uart, fun hlate => ?_⟩
    rw [hbrc, huart, hdiv]
    exact h.captured (by omega)
  · rw [h.cfg] at hbrc
    have hres : (uartEdge c ready p).1.brc.heldResult = b₀.heldResult := by
      rw [hbrc, acknowledge_heldResult, h.result]
    obtain hread | hwrite : n % 4 = 1 ∨ n % 4 = 3 := by omega
    · obtain ⟨hisRead, hreply, hkept⟩ := h.read_row hapart hw hn hread
      have hdiv : (n + 1) / 4 = n / 4 := by omega
      refine ⟨hcfg, hseq, hres, by rw [huart, hkept, hdiv]; exact h.uart, fun _ => ?_⟩
      rw [hbrc, tmp_acknowledge_read hisRead, hreply, huart, hkept, hdiv]
    · have hdiv : (n + 1) / 4 = n / 4 + 1 := by omega
      refine ⟨hcfg, hseq, hres, by rw [huart, hdiv]; exact h.write_row hapart hw hn hwrite, by omega⟩

theorem UartAt.run (h : UartAt c b₀ u₀ n p) (hapart : TargetsApart c) (hw : 8 ≤ c.regW) (ready : List Bool) :
    UartAt c b₀ u₀ (ready.foldl nextApplyEdge n) (uartRun c ready p) := by
  induction ready generalizing p n with
  | nil => exact h
  | cons r ready ih => exact ih (h.edge hapart hw r)

/-! ## The end state (R116, R117) -/

/-- R5: an accepted configuration has registers of at least 8 bits. -/
theorem regW_of_accepted (h : configRefusal c = none) : 8 ≤ c.regW := by
  by_contra hw
  unfold configRefusal at h
  split_ifs at h
  omega

/-- An APPLY run to its end holds the result it applied, and the slave is the UART of R116. -/
theorem uartRun_acceptApply {s : State} {u : Uart c.regW} {ready : List Bool} (hcfg : s.cfg = c)
    (hc : configRefusal c = none) (hapart : TargetsApart c)
    (hend : (uartRun c ready (s.setBrc s.brc.acceptApply, u)).1.brc.busy = false) :
    (uartRun c ready (s.setBrc s.brc.acceptApply, u)).1.cfg = c ∧
    (uartRun c ready (s.setBrc s.brc.acceptApply, u)).1.brc.heldResult = s.brc.heldResult ∧
    (uartRun c ready (s.setBrc s.brc.acceptApply, u)).2 = u.applied s.brc := by
  have hrun := (uartAt_acceptApply hcfg u).run hapart (regW_of_accepted hc) ready
  rw [hrun.sequencer.busy_eq_false_iff] at hend
  rw [hend] at hrun
  exact ⟨hrun.cfg, hrun.result, hrun.uart.trans (afterPairs_five u s.brc)⟩

end Edge

/-- Settles O29: the five read-modify-writes make the UART of R116, which is the statement's. -/
theorem applyLeavesTheUartConfigured : Obligations.ApplyLeavesTheUartConfigured := by
  intro s u hc hapart hidle hcan
  refine ⟨_, exec_brcApply_of_accepted hidle hcan, fun ready hend => ?_⟩
  obtain ⟨-, -, huart⟩ := uartRun_acceptApply rfl hc hapart hend
  exact huart

theorem clearDlab_clearDlab {w : Nat} (v : BitVec w) : clearDlab (clearDlab v) = clearDlab v := by
  rw [clearDlab, clearDlab, BitVec.and_assoc, BitVec.and_self]

theorem insertByte_insertByte {w : Nat} (v : BitVec w) (x : BitVec 8) :
    insertByte (insertByte v x) x = insertByte v x := by
  refine BitVec.eq_of_getLsbD_eq fun j hj => ?_
  rw [insertByte_getLsbD _ _ hj, insertByte_getLsbD _ _ hj]
  by_cases h8 : j < 8 <;> simp [h8]

theorem applied_applied {w : Nat} (u : Uart w) (b : Brc) : (u.applied b).applied b = u.applied b := by
  simp [Uart.applied, clearDlab_clearDlab, insertByte_insertByte]

/-- Settles O31: the first APPLY leaves BRC idle with its result, so the second is accepted and makes R116's update of the
slave once more. -/
theorem applyIsIdempotent : Obligations.ApplyIsIdempotent := by
  intro s u t₁ ready₁ hc hapart hidle hcan hx hend
  cases (exec_brcApply_of_accepted hidle hcan).symm.trans hx
  obtain ⟨hcfg, hres, huart⟩ := uartRun_acceptApply rfl hc hapart hend
  refine ⟨_, exec_brcApply_of_accepted hend ((canApply_congr hres).trans hcan), rfl, fun ready₂ hend₂ => ?_⟩
  obtain ⟨-, -, huart₂⟩ := uartRun_acceptApply hcfg hc hapart hend₂
  rw [huart₂, applied_congr hres, huart, applied_applied]

end Sys2Proof.Machine

/-!
PROOFS. The write port's own statements of 42_ring_write.md: the edges of W.NOP and R.NOP (R125, R137), of an accepted push
(R126) and of a dropped one (R127), the levels and the live bytes (R129, R142), and the gray-compare forms of full and
empty (R128, R136).
-/
namespace Sys2Proof.Machine

/-! ## The `wclk` edge (R125 to R127) -/

theorem exec_wPush_of_full {s : State} (d : Byte) (hfull : s.wFull = true) : exec (.wPush d) s = .next s.syncW := by
  simp [exec, execWPush, hfull]

theorem exec_wPush_of_room {s : State} (d : Byte) (hroom : s.wFull = false) :
    exec (.wPush d) s = .next (s.acceptPush d).syncW := by
  simp [exec, execWPush, hroom]

/-- Settles O39: each edge is its domain's shift, which updates the stages and the sampling bits alone. -/
theorem arbNopsMoveNoPointer : Obligations.ArbNopsMoveNoPointer := fun s =>
  ⟨⟨shiftStages s.sampleR s.wr.rqW, { s.sampling with rChg := false }, rfl⟩,
    ⟨shiftStages s.sampleW s.rd.wqR, { s.sampling with wChg := false }, rfl⟩⟩

/-- Settles O40: the shift that goes with the push reads no pointer and no byte that the push writes. -/
theorem acceptedPushStoresItsByte : Obligations.AcceptedPushStoresItsByte := by
  intro s d hroom
  have hread := acceptPush_read s d
  refine ⟨_, exec_wPush_of_room d hroom, rfl, rfl, ?_, fun a ha => ?_, rfl, rfl, rfl, rfl, rfl, rfl, rfl⟩
  · exact (hread _).trans (if_pos rfl)
  · exact (hread a).trans (if_neg ha)

/-- Settles O41: the dropped push leaves the shift of a W.NOP's edge. -/
theorem pushOnFullIsDropped : Obligations.PushOnFullIsDropped := fun s d hfull =>
  ⟨s.syncW, exec_wPush_of_full d hfull, rfl, rfl, rfl, rfl, rfl, rfl⟩

/-! ## The levels and the live bytes (R129, R142) -/

section Counts

variable {s : State} {wc wp : Nat} {wv : List Nat} {rc rp : Nat} {rv : List Nat}

theorem RingCounts.live_length (h : RingCounts s wc wp wv rc rp rv) : s.live.length = wc - rc := by
  rw [h.live_eq, countedBytes_length]

/-- Every live byte was written (R159). -/
theorem RingCounts.live_isSome (h : RingCounts s wc wp wv rc rp rv) {x : Option Byte} (hx : x ∈ s.live) :
    x.isSome = true := by
  rw [h.live_eq] at hx
  obtain ⟨c, hc, rfl⟩ := List.mem_map.mp hx
  obtain ⟨hlo, hhi⟩ := List.mem_range'_1.mp hc
  exact h.stored c hlo (by omega)

/-- The byte shown to the reader is that of the oldest live count (R135). -/
theorem RingCounts.rData_isSome (h : RingCounts s wc wp wv rc rp rv) (hempty : s.rEmpty = false) :
    s.rData.isSome = true := by
  obtain ⟨-, -, hwv, -⟩ := h.order
  have hvisible := h.visible hempty
  rw [State.rData, hempty, h.readSlot_eq]
  exact h.stored rc le_rfl (by omega)

end Counts

/-- Both pointers at 0 leave no byte live. -/
theorem live_of_reset {s : State} (hwr : s.wr = WriteDomain.reset s.cfg) (hrd : s.rd = ReadDomain.reset s.cfg) :
    s.live = [] := by
  simp [State.live, hwr, hrd, WriteDomain.reset, ReadDomain.reset, subMod]

/-- A write view that is full and empty has `N` equal to 0, in every state (R129). -/
theorem n_eq_zero_of_wFull_wEmpty {s : State} (h : s.wFull = true ∧ s.wEmpty = true) : s.cfg.n = 0 := by
  simp only [State.wFull, State.wEmpty, beq_iff_eq] at h
  omega

/-- A read view that is full and empty has `N` equal to 0, in every state (R142). -/
theorem n_eq_zero_of_rFull_rEmpty {s : State} (h : s.rFull = true ∧ s.rEmpty = true) : s.cfg.n = 0 := by
  simp only [State.rFull, State.rEmpty, beq_iff_eq] at h
  omega

/-- Settles O48: with `N = 0` everything is 0; with counts, the levels and the number of live bytes are differences of
counts that R158 orders. -/
theorem levelsBracketTheLiveBytes : Obligations.LevelsBracketTheLiveBytes := by
  intro s hinv
  obtain ⟨hn, hwr, hrd, -⟩ | ⟨wc, wp, wv, rc, rp, rv, h⟩ := hinv.cases
  · have hlive := live_of_reset hwr hrd
    exact ⟨by simp [State.rLevel, hn], by simp [hlive], by simp [State.wLevel, hn], n_eq_zero_of_wFull_wEmpty,
      n_eq_zero_of_rFull_rEmpty, by simp [hlive], by simp [rEmpty_of_zero hn]⟩
  · obtain ⟨hrv, hrc, hwv, hwc⟩ := h.order
    rw [h.rLevel_eq, h.wLevel_eq, h.live_length]
    exact ⟨by omega, by omega, by omega, n_eq_zero_of_wFull_wEmpty, n_eq_zero_of_rFull_rEmpty,
      fun x hx => h.live_isSome hx, h.rData_isSome⟩

/-! ## The gray-compare forms (R128, R136) -/

/-- Two counts less than the modulus apart have the same code exactly when they are the same count (R158). -/
theorem gray_count_eq_iff {w a b : Nat} (hle : a ≤ b) (hlt : b - a < 2 ^ w) :
    gray (a % 2 ^ w) = gray (b % 2 ^ w) ↔ a = b := by
  have hp := Nat.two_pow_pos w
  refine ⟨fun heq => ?_, fun heq => by rw [heq]⟩
  have hmod : a ≡ b [MOD 2 ^ w] := gray_inj (Nat.mod_lt _ hp) (Nat.mod_lt _ hp) heq
  have hzero := Nat.eq_zero_of_dvd_of_lt ((Nat.modEq_iff_dvd' hle).mp hmod) hlt
  omega

/-- The gray code is linear over XOR (R150). -/
theorem gray_xor (a b : Nat) : gray (a ^^^ b) = gray a ^^^ gray b := by
  simp only [gray, Nat.shiftRight_xor_distrib]
  ac_rfl

/-- Adding `2^k` to a value of `k + 1` bits, the carry lost, turns its top bit over. -/
theorem add_two_pow_mod_eq_xor (k b : Nat) : (b + 2 ^ k) % 2 ^ (k + 1) = b % 2 ^ (k + 1) ^^^ 2 ^ k := by
  refine Nat.eq_of_testBit_eq fun i => ?_
  rw [Nat.testBit_xor, Nat.testBit_mod_two_pow, Nat.testBit_mod_two_pow, Nat.testBit_two_pow, Nat.add_comm b]
  obtain hlt | rfl | hgt := lt_trichotomy i k
  · simp [Nat.testBit_two_pow_add_gt hlt, hlt.ne']
  · simp [Nat.testBit_two_pow_add_eq]
  · simp [hgt.ne, Nat.not_lt.mpr hgt]

/-- The code of a count that is `2^k` ahead differs from the count's by the code of `2^k` (R128). -/
theorem gray_add_two_pow (k b : Nat) : gray ((b + 2 ^ k) % 2 ^ (k + 1)) = gray (b % 2 ^ (k + 1)) ^^^ gray (2 ^ k) := by
  rw [add_two_pow_mod_eq_xor, gray_xor]

/-- For `k ≥ 1` the code of `2^k` is the two topmost bits of a pointer (R128). -/
theorem gray_two_pow_succ (k : Nat) : gray (2 ^ (k + 1)) = 0b11 <<< k := by
  have hlow : (1 : Nat) <<< k ^^^ 2 <<< k = 3 <<< k := (Nat.shiftLeft_xor_distrib (a := 1) (b := 2)).symm
  rw [← hlow, gray, Nat.shiftRight_one, Nat.xor_comm]
  congr 1 <;> simp [Nat.shiftLeft_eq, pow_succ, Nat.mul_comm]

/-- One-bit codes differ by bit 0 exactly when one is the other XOR 1 (R128). -/
theorem eq_xor_one_iff : ∀ x < 2, ∀ y < 2, x = y ^^^ 1 ↔ (x.testBit 0 != y.testBit 0) = true := by decide

section Counts

variable {s : State} {wc wp : Nat} {wv : List Nat} {rc rp : Nat} {rv : List Nat}

/-- The write view is full exactly when the code of the write pointer is that of the viewed read pointer with the code of
`N` (R128). -/
theorem RingCounts.wFull_iff_gray (h : RingCounts s wc wp wv rc rp rv) :
    s.wFull = true ↔ s.wr.wgray = s.rgrayW ^^^ gray (2 ^ s.cfg.k) := by
  obtain ⟨hrv, hrc, hwv, hwc⟩ := h.order
  have hn := h.n_lt
  rw [State.wFull, beq_iff_eq, h.wLevel_eq, State.rgrayW, h.read.lastStage_eq, h.write.coded, Config.pw,
    ← gray_add_two_pow, ← h.capacity]
  exact Iff.trans (by omega) (gray_count_eq_iff hwc (by rw [Config.pw] at hn; omega)).symm

/-- The two gray forms of full, for `k = 0` and for `k ≥ 1`, are one comparison (R128). -/
theorem RingCounts.wFullByGray_iff (h : RingCounts s wc wp wv rc rp rv) :
    s.wFullByGray = true ↔ s.wr.wgray = s.rgrayW ^^^ gray (2 ^ s.cfg.k) := by
  unfold State.wFullByGray
  cases hk : s.cfg.k with
  | zero =>
    have hcode (c : Nat) : gray (c % 2 ^ s.cfg.pw) < 2 := by
      obtain hc | hc := Nat.mod_two_eq_zero_or_one c <;> simp [Config.pw, hk, hc, gray]
    rw [if_pos rfl, State.rgrayW, h.read.lastStage_eq, h.write.coded]
    exact (eq_xor_one_iff _ (hcode wc) _ (hcode _)).symm
  | succ k => rw [if_neg k.succ_ne_zero, beq_iff_eq, gray_two_pow_succ, Nat.add_sub_cancel]

theorem RingCounts.wEmpty_iff_gray (h : RingCounts s wc wp wv rc rp rv) :
    s.wEmpty = true ↔ s.wr.wgray = s.rgrayW := by
  obtain ⟨hrv, hrc, hwv, hwc⟩ := h.order
  have hn := h.n_lt
  rw [State.wEmpty, beq_iff_eq, h.wLevel_eq, State.rgrayW, h.read.lastStage_eq, h.write.coded, eq_comm (a := gray _),
    gray_count_eq_iff (by omega) (by omega)]
  omega

theorem RingCounts.rEmpty_iff_gray (h : RingCounts s wc wp wv rc rp rv) :
    s.rEmpty = true ↔ s.rd.rgray = s.wgrayR := by
  obtain ⟨hrv, hrc, hwv, hwc⟩ := h.order
  have hn := h.n_lt
  rw [State.rEmpty, beq_iff_eq, h.rLevel_eq, State.wgrayR, h.write.lastStage_eq, h.read.coded,
    gray_count_eq_iff hrc (by omega)]
  omega

/-- A read view that has caught up with the write pointer shows every live byte (R136). -/
theorem RingCounts.rLevel_eq_live_length (h : RingCounts s wc wp wv rc rp rv) (hview : s.wgrayR = s.wr.wgray) :
    s.rLevel = s.live.length := by
  obtain ⟨hrv, hrc, hwv, hwc⟩ := h.order
  have hn := h.n_lt
  rw [State.wgrayR, h.write.lastStage_eq, h.write.coded, gray_count_eq_iff hwv (by omega)] at hview
  rw [h.rLevel_eq, h.live_length, hview]

end Counts

/-- Settles O49: a view is full when its two counts are `N` apart and empty when they are equal, and counts that are near
each other are told apart by their codes. -/
theorem grayCompareFormsAgree : Obligations.GrayCompareFormsAgree := by
  intro s hinv hn
  obtain ⟨hzero, -⟩ | ⟨wc, wp, wv, rc, rp, rv, h⟩ := hinv.cases
  · exact absurd hzero hn
  · refine ⟨Bool.eq_iff_iff.mpr (h.wFull_iff_gray.trans h.wFullByGray_iff.symm), Bool.eq_iff_iff.mpr ?_,
      Bool.eq_iff_iff.mpr ?_⟩
    · rw [h.wEmpty_iff_gray, decide_eq_true_iff]
    · rw [h.rEmpty_iff_gray, decide_eq_true_iff]

end Sys2Proof.Machine

/-!
PROOFS. The overflow of 42_ring_write.md R132: runs whose read port only idles fill the buffer up to `N` bytes, R.NOP edges
let the read view catch up (R155), and pops return the bytes the read view shows (R138).
-/
namespace Sys2Proof.Machine

/-! ## Pops return what the read view shows (R138) -/

theorem exec_rPop_of_visible {s : State} (hempty : s.rEmpty = false) : exec .rPop s = .next s.popOne.syncR := by
  simp [exec, execRPop, hempty]

/-- As many pops as the read view counts return the oldest live bytes in order. -/
theorem RingCounts.poppedBytes_eq {m : Nat} {s : State} {wc wp : Nat} {wv : List Nat} {rc rp : Nat} {rv : List Nat}
    (h : RingCounts s wc wp wv rc rp rv) (hm : m ≤ s.rLevel) : poppedBytes m s = s.live.take m := by
  induction m generalizing s wc wp wv rc rp rv with
  | zero => rfl
  | succ m ih =>
    have hempty : s.rEmpty = false := by
      rw [State.rEmpty, beq_eq_false_iff_ne]
      omega
    have hx := exec_rPop_of_visible hempty
    have hleft : s.leavingBy .rPop = [s.rData] := by simp [State.leavingBy, hempty]
    obtain ⟨wp', wv', rp', rv', hview, -, h'⟩ := h.of_exec hx
    have hlevel : m ≤ s.popOne.syncR.rLevel := by
      rw [h.rLevel_eq] at hm
      rw [h'.rLevel_eq, hleft, List.length_singleton]
      omega
    have hqueue : s.live = s.rData :: s.popOne.syncR.live := by
      have hstep := h.exec_queue_step hx
      rw [hleft] at hstep
      exact (List.append_nil _).symm.trans hstep
    simp only [poppedBytes, hx, ih h' hlevel, hqueue, List.take_succ_cons]
    rfl

theorem RingInv.poppedBytes_eq {m : Nat} {s : State} (h : RingInv s) (hm : m ≤ s.rLevel) :
    poppedBytes m s = s.live.take m := by
  obtain ⟨hn, -⟩ | ⟨wc, wp, wv, rc, rp, rv, hcounts⟩ := h.cases
  · have hzero : s.rLevel = 0 := by simp [State.rLevel, hn]
    obtain rfl : m = 0 := by omega
    rfl
  · exact hcounts.poppedBytes_eq hm

/-! ## R.NOP edges let the read view catch up (R151, R155) -/

/-- What an `rclk` edge with R.NOP makes of a state out of reset. -/
def State.rNopEdge (s : State) (d : Draw) : State := ((s.setScript []).driveDrawW d).syncR

theorem step_rNop {s : State} (d : Draw) (hc : configRefusal s.cfg = none) (hr : s.ports.rrstN = true) :
    step (s.setScript [.rclk 0b00#2 d]) = .next (s.rNopEdge d) :=
  step_of_planStep_run (rest := []) (i := .rNop) hc rfl (planStep_rclk_of_decode d hr rfl)

theorem play_rNops {s : State} (ds : List Draw) (hc : configRefusal s.cfg = none) (hr : s.ports.rrstN = true) :
    play (ds.map fun d => .rclk 0b00#2 d) s = .next (ds.foldl State.rNopEdge s) := by
  induction ds generalizing s with
  | nil => rfl
  | cons d ds ih => exact (play_cons_of_next (step_rNop d hc hr)).trans (ih hc hr)

theorem foldl_rNopEdge_wr (ds : List Draw) (s : State) : (ds.foldl State.rNopEdge s).wr = s.wr := by
  induction ds generalizing s with
  | nil => rfl
  | cons d ds ih => exact ih (s.rNopEdge d)

/-- One more shift of the value in front of the stages (R151). -/
theorem take_replicate_append_shiftStages (x n : Nat) (q : List Nat) :
    (List.replicate n x ++ shiftStages x q).take q.length = (List.replicate (n + 1) x ++ q).take q.length := by
  have hfront : List.replicate (n + 1) x ++ q = List.replicate n x ++ x :: q := by
    rw [List.replicate_succ', List.append_assoc]; rfl
  rw [hfront, shiftStages, List.take_append, List.take_append, List.take_take, Nat.min_eq_left (Nat.sub_le _ _)]

/-- While the write pointer has no change to be sampled, R.NOP edges shift its code in, whatever is drawn (R151, R152). -/
theorem foldl_rNopEdge_wqR {s : State} (hchg : s.sampling.wChg = false) (ds : List Draw) :
    (ds.foldl State.rNopEdge s).rd.wqR =
      (List.replicate ds.length s.wr.wgray ++ s.rd.wqR).take s.rd.wqR.length := by
  induction ds generalizing s with
  | nil => exact List.take_length.symm
  | cons d ds ih =>
    have hedge : (s.rNopEdge d).rd.wqR = shiftStages s.wr.wgray s.rd.wqR := by
      simp [State.rNopEdge, State.sampleW, hchg]
    have hrest := ih (s := s.rNopEdge d) rfl
    rw [hedge, shiftStages_length] at hrest
    exact hrest.trans (take_replicate_append_shiftStages _ _ _)

/-- The first edge covers a change not yet sampled, and as many edges behind it as there are stages bring the write
pointer's code to the last stage, under every draw (R155). -/
theorem wgrayR_of_rNops {s : State} {ds : List Draw} (hstages : s.rd.wqR ≠ []) (hlen : s.rd.wqR.length < ds.length) :
    (ds.foldl State.rNopEdge s).wgrayR = s.wr.wgray := by
  cases ds with
  | nil => cases hlen
  | cons d ds =>
    have hsize : (s.rNopEdge d).rd.wqR.length = s.rd.wqR.length := shiftStages_length _ _
    have hle : s.rd.wqR.length ≤ ds.length := Nat.lt_succ_iff.mp hlen
    rw [List.foldl_cons, State.wgrayR, foldl_rNopEdge_wqR rfl, hsize,
      List.take_append_of_le_length (by simpa using hle), List.take_replicate, Nat.min_eq_left hle, lastStage,
      List.getLastD_eq_getLast?, List.getLast?_replicate, if_neg (by simpa using hstages)]
    rfl

/-! ## Runs whose read port only idles (R132) -/

theorem AgreeOnArb.wLevel_eq {s t : State} (e : AgreeOnArb s t) : s.wLevel = t.wLevel := by
  simp only [State.wLevel, State.rgrayW, e.cfg, e.wr]

/-- There is a ring, and its write view counts the live bytes exactly: it has seen every byte leave. -/
structure WriteViewExact (s : State) : Prop where
  inv : RingInv s
  hasRing : s.cfg.n ≠ 0
  level_eq : s.wLevel = s.live.length

/-- An empty write view is exact: no byte is live (R130). -/
theorem WriteViewExact.of_empty {s : State} (hinv : RingInv s) (hn : s.cfg.n ≠ 0) (hempty : s.wLevel = 0) :
    WriteViewExact s ∧ s.live = [] := by
  obtain ⟨-, hle, -⟩ := levelsBracketTheLiveBytes s hinv
  have hlive : s.live = [] := List.eq_nil_of_length_eq_zero (by omega)
  exact ⟨⟨hinv, hn, by simp [hempty, hlive]⟩, hlive⟩

theorem WriteViewExact.counts {s : State} (h : WriteViewExact s) :
    ∃ wc wp wv rc rp rv, RingCounts s wc wp wv rc rp rv := by
  obtain ⟨hzero, -⟩ | hcounts := h.inv.cases
  · exact absurd hzero h.hasRing
  · exact hcounts

theorem WriteViewExact.of_agree {s t : State} (h : WriteViewExact s) (e : AgreeOnArb s t) : WriteViewExact t :=
  ⟨e.ringInv h.inv, e.cfg ▸ h.hasRing, by rw [← e.wLevel_eq, ← e.live_eq, h.level_eq]⟩

/-- A command that lets no byte leave keeps the write view exact: the view cannot pass the read count (R156). -/
theorem WriteViewExact.of_exec {s t : State} {i : Instr} (h : WriteViewExact s) (hx : exec i s = .next t)
    (hleaving : s.leavingBy i = []) : WriteViewExact t := by
  obtain ⟨wc, wp, wv, rc, rp, rv, hs⟩ := h.counts
  obtain ⟨wp', wv', rp', rv', -, hview, ht⟩ := hs.of_exec hx
  have hexact := h.level_eq
  obtain ⟨hrv, hrc, hwv, -⟩ := hs.order
  obtain ⟨hrv', -⟩ := ht.order
  refine ⟨ht.ringInv, ht.n_ne_zero, ?_⟩
  rw [hs.wLevel_eq, hs.live_length] at hexact
  rw [ht.wLevel_eq, ht.live_length]
  simp only [hleaving, List.length_nil] at hrv' ⊢
  omega

/-- With an exact write view the bytes offered fill the buffer up to `N` and no further (R126, R127). -/
theorem WriteViewExact.live_append_take {s : State} (h : WriteViewExact s) (offered : Option Byte)
    (rest : List (Option Byte)) :
    (s.live ++ (if s.wFull then [] else offered.toList.map some) ++ rest).take s.cfg.n =
      (s.live ++ offered.toList.map some ++ rest).take s.cfg.n := by
  cases hfull : s.wFull with
  | false => rfl
  | true =>
    have hlen : s.live.length = s.cfg.n := by rw [← h.level_eq]; simpa [State.wFull] using hfull
    simp [List.take_left' hlen]

/-- A state in which such a run goes on: an accepted configuration, the ARB resets released, and an exact write view. -/
structure Filling (s : State) : Prop where
  accepted : configRefusal s.cfg = none
  wrstN : s.ports.wrstN = true
  rrstN : s.ports.rrstN = true
  view : WriteViewExact s

theorem Filling.live_length_le {s : State} (h : Filling s) : s.live.length ≤ s.cfg.n := by
  obtain ⟨-, -, hle, -⟩ := levelsBracketTheLiveBytes s h.view.inv
  exact h.view.level_eq.symm.trans_le hle

theorem pushedByte_wNop (b : Byte) (d : Draw) : pushedByte (.wclk (0#1 ++ b) d) = none := by
  rw [pushedByte, wcmd_getLsbD_eight]; rfl

theorem pushedByte_wPush (b : Byte) (d : Draw) : pushedByte (.wclk (1#1 ++ b) d) = some b := by
  rw [pushedByte, wcmd_getLsbD_eight, BitVec.extractLsb'_append_eq_right]; rfl

/-- The step of a `wclk` edge, out of reset: its word's command, in the state that has sampled the draw. -/
theorem step_wclk {s : State} {w : BitVec 9} {i : Instr} (d : Draw) (hc : configRefusal s.cfg = none)
    (hw : s.ports.wrstN = true) (hd : decode (.wcmd w) = .ok i) :
    step (s.setScript [.wclk w d]) = exec i ((s.setScript []).driveDrawR d) :=
  step_of_planStep_run (rest := []) hc rfl (planStep_wclk_of_decode d hw hd)

/-- An edge of such a run completes a command that lets no byte leave and accepts the byte the edge pushes unless the write
view is full. -/
theorem Filling.step_command {s : State} {e : HostStep} (h : Filling s) (he : writeOrReadIdle e = true) :
    ∃ i p t, p.wrstN = true ∧ p.rrstN = true ∧ step (s.setScript [e]) = .next t ∧
      exec i ((s.setScript []).setPorts p) = .next t ∧ ∀ x : State, x.leavingBy i = [] ∧
        x.acceptedBy i = if x.wFull then [] else (pushedByte e).toList.map some := by
  cases e with
  | wclk word d =>
    cases (CmdWord.wcmd word).form with
    | wNop b =>
      exact ⟨.wNop, { s.ports with drawR := d }, _, h.wrstN, h.rrstN,
        step_wclk d h.accepted h.wrstN (decode_wcmd_nop b), rfl,
        fun x => ⟨rfl, by simp [State.acceptedBy, pushedByte_wNop]⟩⟩
    | wPush b =>
      exact ⟨.wPush b, { s.ports with drawR := d }, _, h.wrstN, h.rrstN,
        step_wclk d h.accepted h.wrstN (decode_wcmd_push b), rfl,
        fun x => ⟨rfl, by rw [pushedByte_wPush]; rfl⟩⟩
  | rclk op d =>
    obtain rfl : op = 0b00#2 := eq_of_beq he
    exact ⟨.rNop, { s.ports with drawW := d }, _, h.wrstN, h.rrstN, step_rNop d h.accepted h.rrstN, rfl,
      fun x => ⟨rfl, by simp [State.acceptedBy, pushedByte]⟩⟩
  | cclk _ _ _ _ _ | resets _ _ _ | portOutOfDomain _ | readOutOfDomain _ => cases he

/-- An edge of such a run puts the byte it pushes behind the live ones, unless the write view is full. -/
theorem Filling.step_next {s : State} {e : HostStep} (h : Filling s) (he : writeOrReadIdle e = true) :
    ∃ t, step (s.setScript [e]) = .next t ∧ Filling t ∧ t.cfg = s.cfg ∧
      t.live = s.live ++ if s.wFull then [] else (pushedByte e).toList.map some := by
  obtain ⟨i, p, t, hw, hr, hstep, hx, hbytes⟩ := h.step_command he
  have hagree : AgreeOnArb s ((s.setScript []).setPorts p) := ⟨rfl, rfl, rfl, rfl, rfl⟩
  have hcfg : t.cfg = s.cfg := exec_cfg (s := (s.setScript []).setPorts p) hx
  have hports : t.ports = p := exec_ports hx
  have hview := h.view.of_agree hagree
  obtain ⟨hleaving, haccepted⟩ := hbytes ((s.setScript []).setPorts p)
  have hqueue := everyCommandIsAQueueStep _ t i hview.inv hx
  rw [hleaving, haccepted, ← hagree.live_eq, ← hagree.wFull_eq] at hqueue
  exact ⟨t, hstep, ⟨hcfg ▸ h.accepted, hports ▸ hw, hports ▸ hr, hview.of_exec hx hleaving⟩, hcfg, hqueue.symm⟩

/-- The bytes such a run pushes fill the buffer behind the live ones up to `N`, and the rest are dropped: induction on the
edges (R126, R127, R132). -/
theorem Filling.play_fills {es : List HostStep} {s : State} (h : Filling s) (hes : ∀ e ∈ es, writeOrReadIdle e = true) :
    ∃ t, play es s = .next t ∧ Filling t ∧ t.cfg = s.cfg ∧
      t.live = (s.live ++ (es.filterMap pushedByte).map some).take s.cfg.n := by
  induction es generalizing s with
  | nil => exact ⟨s, rfl, h, rfl, by simp [List.take_of_length_le h.live_length_le]⟩
  | cons e es ih =>
    obtain ⟨he, hes'⟩ := List.forall_mem_cons.mp hes
    obtain ⟨t, hstep, ht, htcfg, htlive⟩ := h.step_next he
    obtain ⟨u, hplay, hu, hucfg, hulive⟩ := ih ht hes'
    refine ⟨u, (play_cons_of_next hstep).trans hplay, hu, hucfg.trans htcfg, ?_⟩
    rw [hulive, htcfg, htlive, h.view.live_append_take]
    cases hpushed : pushedByte e <;> simp [hpushed]

/-- R.NOPs move no byte, and more of them than there are stages bring the read view to every live byte (R155). -/
theorem Filling.rNops_show_all {s : State} {ds : List Draw} (h : Filling s) (hds : ds.length = s.cfg.stages + 1) :
    ∃ u, play (ds.map fun d => .rclk 0b00#2 d) s = .next u ∧ RingInv u ∧ u.live = s.live ∧
      u.rLevel = s.live.length := by
  obtain ⟨u, hplay, hu, -, hlive⟩ := h.play_fills (es := ds.map fun d => .rclk 0b00#2 d) (by simp [writeOrReadIdle])
  have hnone : (ds.map fun d => HostStep.rclk 0b00#2 d).filterMap pushedByte = [] := by simp [pushedByte]
  rw [hnone, List.map_nil, List.append_nil, List.take_of_length_le h.live_length_le] at hlive
  have hview : u.wgrayR = u.wr.wgray := by
    obtain ⟨_, _, wv, _, _, _, hcounts⟩ := h.view.counts
    have hsize : s.rd.wqR.length = s.cfg.stages := by
      rw [hcounts.write.untorn, List.length_map, hcounts.stagesR]
    have hdepth := hcounts.depth
    cases (play_rNops ds h.accepted h.rrstN).symm.trans hplay
    rw [foldl_rNopEdge_wr]
    exact wgrayR_of_rNops (List.ne_nil_of_length_pos (by omega)) (by omega)
  obtain ⟨_, _, _, _, _, _, hcounts⟩ := hu.view.counts
  exact ⟨u, hplay, hu.view.inv, hlive, (hcounts.rLevel_eq_live_length hview).trans (congrArg _ hlive)⟩

/-- Settles O53: the run fills an empty buffer with the first `N` bytes, the R.NOPs let the read view count them all, and the
pops return what the view counts. -/
theorem overflowKeepsTheFirstBytes : Obligations.OverflowKeepsTheFirstBytes := by
  rintro s es ds bytes hc hinv hn hw hr hlevel hes rfl hlen hds
  obtain ⟨hs, hempty⟩ := WriteViewExact.of_empty hinv hn hlevel
  obtain ⟨t, hplay, ht, htcfg, htlive⟩ := Filling.play_fills ⟨hc, hw, hr, hs⟩ hes
  rw [hempty, List.nil_append, ← List.map_take] at htlive
  have htlen : t.live.length = s.cfg.n := by simp [htlive, hlen]
  obtain ⟨u, hnops, huinv, hulive, hulevel⟩ := ht.rNops_show_all (hds.trans (by rw [htcfg]))
  refine ⟨t, u, hplay, ht.view.level_eq.trans htlen, htlive, hnops, hulevel.trans htlen, ?_⟩
  rw [huinv.poppedBytes_eq (htlen.symm.trans hulevel.symm).le, hulive, List.take_of_length_le htlen.le, htlive]

end Sys2Proof.Machine

/-!
PROOFS. The read port's own statements of 43_ring_read.md: the edges of a completed R.POP (R138) and of R.FLUSH (R140,
R141), and the block with `N = 0` (R146).
-/
namespace Sys2Proof.Machine

/-! ## The `rclk` edge (R138, R140, R141) -/

theorem rData_of_visible {s : State} (hempty : s.rEmpty = false) : s.rData = Memory.read s.mem s.readSlot := by
  simp [State.rData, hempty]

/-- Settles O42: the byte popped is `r_data`, and the shift that goes with the pop reads nothing that the pop writes. -/
theorem popReturnsTheOldestByte : Obligations.PopReturnsTheOldestByte := fun _ hempty =>
  ⟨_, exec_rPop_of_visible hempty, rData_of_visible hempty, rfl, rfl, rfl, rfl, rfl, rfl, rfl, rfl, rfl⟩

/-- Settles O44: with a ring the flush is a move of the read pointer to the view, without one it is none. -/
theorem flushTakesTheWritePointerView : Obligations.FlushTakesTheWritePointerView := fun s =>
  ⟨s.flushView.syncR, rfl, fun hn => by simp [flushView_ring hn], fun hn => by simp [flushView_zero hn],
    flushView_mem s, flushView_wr s, flushView_brc s, flushView_popped s, flushView_cfg s, flushView_ports s,
    flushView_script s, flushView_tick s⟩

/-! ## The block without a ring (R146) -/

/-- A write domain without stages, opposite an unchanged read pointer, has nothing to shift. -/
theorem syncW_eq_self {s : State} (hstages : s.wr.rqW = []) (hchg : s.sampling.rChg = false) : s.syncW = s := by
  have hwr : { s.wr with rqW := shiftStages s.sampleR s.wr.rqW } = s.wr := by rw [hstages, shiftStages_nil, ← hstages]
  have hsampling : { s.sampling with rChg := false } = s.sampling := by rw [← hchg]
  rw [State.syncW, hwr, hsampling]
  rfl

/-- A read domain without stages, opposite an unchanged write pointer, has nothing to shift. -/
theorem syncR_eq_self {s : State} (hstages : s.rd.wqR = []) (hchg : s.sampling.wChg = false) : s.syncR = s := by
  have hrd : { s.rd with wqR := shiftStages s.sampleW s.rd.wqR } = s.rd := by rw [hstages, shiftStages_nil, ← hstages]
  have hsampling : { s.sampling with wChg := false } = s.sampling := by rw [← hchg]
  rw [State.syncR, hrd, hsampling]
  rfl

theorem wLevel_of_zero {s : State} (hn : s.cfg.n = 0) : s.wLevel = 0 := if_pos hn

theorem rLevel_of_zero {s : State} (hn : s.cfg.n = 0) : s.rLevel = 0 := if_pos hn

theorem exec_rPop_of_empty {s : State} (hempty : s.rEmpty = true) :
    exec .rPop s = .fault (.popEmpty .read s.rd.rbin) := by
  simp [exec, execRPop, hempty]

/-- With `N = 0` the invariant leaves both domains as reset made them, without stages (R39, R146). -/
theorem RingInv.sync_eq_self_of_zero {s : State} (h : RingInv s) (hn : s.cfg.n = 0) : s.syncW = s ∧ s.syncR = s := by
  obtain ⟨-, hwr, hrd, hsampling⟩ | ⟨_, _, _, _, _, _, hcounts⟩ := h.cases
  · have hstages : List.replicate (stageCount s.cfg) 0 = [] := by rw [stageCount, if_pos hn, List.replicate_zero]
    exact ⟨syncW_eq_self (by rw [hwr]; exact hstages) (by rw [hsampling]; rfl),
      syncR_eq_self (by rw [hrd]; exact hstages) (by rw [hsampling]; rfl)⟩
  · exact absurd hn hcounts.n_ne_zero

/-- Settles O45: the levels are 0 and so is `N`, which makes every flag 1; the edges that complete only shift, and there is
nothing to shift. -/
theorem zeroCapacityHoldsNothing : Obligations.ZeroCapacityHoldsNothing := by
  intro s d hn hinv
  obtain ⟨hsyncW, hsyncR⟩ := hinv.sync_eq_self_of_zero hn
  have hw := wLevel_of_zero hn
  have hr := rLevel_of_zero hn
  have hwfull := wFull_of_zero hn
  have hrempty := rEmpty_of_zero hn
  refine ⟨hw, hr, hwfull, by simp [State.wEmpty, hw], by simp [State.rFull, hr, hn], hrempty, if_pos hrempty, ?_,
    congrArg _ hsyncW, congrArg _ hsyncR, ?_, exec_rPop_of_empty hrempty⟩
  · rw [exec_wPush_of_full d hwfull, hsyncW]
  · calc exec .rFlush s = .next s.flushView.syncR := rfl
      _ = .next s := by rw [flushView_zero hn, hsyncR]

end Sys2Proof.Machine

/-!
PROOFS. The invariants of 44_cdc_sync.md: every step keeps the counting and storage invariants (R158 to R161), and no view
decreases or passes its source (R156).
-/
namespace Sys2Proof.Machine

/-! ## The counts right after an ARB reset (R158, R185) -/

/-- R5: an accepted configuration has at least two synchroniser stages. -/
theorem stages_of_accepted {c : Config} (h : configRefusal c = none) : 2 ≤ c.stages := by
  by_contra hs
  unfold configRefusal at h
  split_ifs at h
  omega

/-- R7: an accepted configuration has no ring or one of `2^k` bytes. -/
theorem capacity_of_accepted {c : Config} (h : configRefusal c = none) : c.n = 0 ∨ c.n = 2 ^ c.k := by
  have hok : capacityOk c.n = true := by
    by_contra hbad
    cases h.symm.trans ((configRefusal_badCapacity_iff c).mpr hbad)
  obtain hzero | ⟨k, -, hk⟩ := (capacityOk_iff c.n).mp hok
  · exact .inl hzero
  · exact .inr (by rw [Config.k, hk, Nat.log2_two_pow])

/-- A crossing at its reset values has counted nothing. -/
theorem Crossing.reset (pw depth : Nat) :
    Crossing pw 0 0 (List.replicate depth 0) 0 0 false 0 (List.replicate depth 0) where
  binary := (Nat.zero_mod _).symm
  coded := by rw [Nat.zero_mod]; rfl
  untorn := by rw [List.map_replicate, Nat.zero_mod]; rfl
  prevLe := le_rfl
  unchanged := fun _ => rfl
  changed := nofun
  notAhead := fun _ hc => (List.eq_of_mem_replicate hc).le
  ordered := List.pairwise_replicate.mpr (.inr le_rfl)

/-- A reset of ARB leaves a ring whose counts are all 0, or no ring and nothing (R185, R187). -/
theorem ringInv_resetArb {s : State} (hc : configRefusal s.cfg = none) : RingInv s.resetArb := by
  by_cases hn : s.cfg.n = 0
  · rw [RingInv, if_pos (by rwa [resetArb_cfg])]
    exact ⟨rfl, rfl, rfl, rfl⟩
  · have hcrossing := Crossing.reset s.cfg.pw s.cfg.stages
    have hdepth : stageCount s.cfg = s.cfg.stages := if_neg hn
    refine RingCounts.ringInv (wc := 0) (wp := 0) (wv := List.replicate s.cfg.stages 0) (rc := 0) (rp := 0)
      (rv := List.replicate s.cfg.stages 0) ?_
    exact {
      capacity := (capacity_of_accepted hc).resolve_left hn
      depth := stages_of_accepted hc
      stagesR := List.length_replicate
      stagesW := List.length_replicate
      write := by rw [resetArb_rd, ReadDomain.reset, hdepth]; exact hcrossing
      read := by rw [resetArb_wr, WriteDomain.reset, hdepth]; exact hcrossing
      readerBehind := Nat.zero_le _
      writerBounded := Nat.zero_le _
      stored := fun _ _ hlt => absurd hlt (Nat.not_lt_zero _)
      inRing := nofun }

/-! ## Every step (R161) -/

theorem AgreeOnArb.of_setPorts (s : State) (p : Ports) : AgreeOnArb s (s.setPorts p) := ⟨rfl, rfl, rfl, rfl, rfl⟩

theorem AgreeOnArb.of_takeHostStep (s : State) : AgreeOnArb s s.takeHostStep.2 := by
  obtain ⟨hcfg, -, hwr, hrd, hmem, hsampling, -⟩ := takeHostStep_frame s
  exact ⟨hcfg.symm, hwr.symm, hrd.symm, hmem.symm, hsampling.symm⟩

/-- Driving the resets leaves ARB as it is, or resets it (R187, R188). -/
theorem applyResets_agree {s t : State} {c w r : Bool} (h : s.applyResets c w r = .next t) :
    AgreeOnArb s t ∨ AgreeOnArb s.resetArb t := by
  obtain ⟨rfl, rfl⟩ := applyResets_next h
  cases w with
  | true => exact .inl (by cases c <;> exact ⟨rfl, rfl, rfl, rfl, rfl⟩)
  | false => exact .inr (by cases c <;> exact ⟨rfl, rfl, rfl, rfl, rfl⟩)

/-- Settles O46: a step runs a command, leaves ARB as it is or resets it, in a state that agrees with `s` on ARB; commands
keep the counts, and a reset sets them to 0. -/
theorem stepKeepsTheRingInvariant : Obligations.StepKeepsTheRingInvariant := by
  intro s t hinv h
  obtain ⟨hc, hcases⟩ := step_next h
  have htake := AgreeOnArb.of_takeHostStep s
  have hu := htake.ringInv hinv
  have hdriven (p : Ports) : RingInv (s.takeHostStep.2.setPorts p) := (AgreeOnArb.of_setPorts _ p).ringInv hu
  rw [htake.cfg] at hc
  obtain ⟨op, f, b, ack, rdata, i, -, -, -, -, hx⟩ | ⟨op, f, b, ack, rdata, -, -, -, rfl⟩ |
    ⟨w, d, i, -, -, -, hx⟩ | ⟨w, d, -, -, rfl⟩ | ⟨op, d, i, -, -, -, hx⟩ | ⟨op, d, -, -, rfl⟩ | ⟨c, w, r, -, hx⟩ := hcases
  · exact exec_keeps_ringInv (hdriven _) hx
  · exact (AgreeOnArb.of_setBrc _ _).ringInv (hdriven _)
  · exact exec_keeps_ringInv (hdriven _) hx
  · exact ringInv_resetArb hc
  · exact exec_keeps_ringInv (hdriven _) hx
  · exact ringInv_resetArb hc
  · obtain hkept | hreset := applyResets_agree hx
    · exact hkept.ringInv hu
    · exact hreset.ringInv (ringInv_resetArb hc)

/-- Settles O47: the counts move as `RingCounts.of_exec` says, and counts that R158 orders bound their views. -/
theorem viewsNeverDecrease : Obligations.ViewsNeverDecrease := by
  intro s t i wc wp wv rc rp rv hs hx
  obtain ⟨wp', wv', rp', rv', hwv, hrv, ht⟩ := hs.of_exec hx
  exact ⟨wp', wv', rp', rv', ht, hwv, ht.write.lastStage_le, hrv, ht.read.lastStage_le⟩

end Sys2Proof.Machine

/-!
PROOFS. The gray code of 44_cdc_sync.md R150: its inverse bit by bit, and the one bit that changes between neighbours.
-/
namespace Sys2Proof.Machine

/-! ## The inverse (R150) -/

theorem gray_lt {w b : Nat} (h : b < 2 ^ w) : gray b < 2 ^ w :=
  Nat.xor_lt_two_pow h ((Nat.shiftRight_le b 1).trans_lt h)

theorem shiftRight_one_lt {w g : Nat} (h : g < 2 ^ (w + 1)) : g >>> 1 < 2 ^ w := by
  rw [Nat.shiftRight_one]
  omega

theorem bin_lt {w g : Nat} (h : g < 2 ^ w) : bin w g < 2 ^ w := by
  induction w generalizing g with
  | zero => exact Nat.one_pos
  | succ w ih =>
    exact Nat.xor_lt_two_pow h ((ih (shiftRight_one_lt h)).trans (Nat.pow_lt_pow_succ (by decide)))

/-- `gray` undoes `bin` on values of its width. -/
theorem gray_bin {w g : Nat} (h : g < 2 ^ w) : gray (bin w g) = g := by
  induction w generalizing g with
  | zero => exact (Nat.lt_one_iff.mp h).symm ▸ rfl
  | succ w ih =>
    rw [bin, gray_xor, ih (shiftRight_one_lt h), gray, Nat.xor_assoc, Nat.xor_self, Nat.xor_zero]

/-- The XOR of the bits of `g` from bit `i` up to bit `w - 1` (R150). -/
theorem testBit_bin {w g i : Nat} (h : g < 2 ^ w) (hi : i ≤ w) :
    (bin w g).testBit i = ((List.range (w - i)).map fun j => g.testBit (i + j)).foldr Bool.xor false := by
  induction w generalizing g with
  | zero => rw [Nat.zero_sub]; exact Nat.zero_testBit i
  | succ w ih =>
    obtain htop | hbelow := Nat.eq_or_lt_of_le hi
    · rw [htop, Nat.sub_self]
      exact Nat.testBit_lt_two_pow (bin_lt h)
    · have hle := Nat.lt_succ_iff.mp hbelow
      rw [bin, Nat.testBit_xor, ih (shiftRight_one_lt h) hle, Nat.succ_sub hle, List.range_succ_eq_map]
      simp [Function.comp_def, Nat.add_comm 1, Nat.add_assoc]

/-! ## Neighbours (R150) -/

/-- Counting up turns over a run of low bits, at the wrap all of them. -/
theorem xor_add_one_mod {w b : Nat} (hw : 0 < w) (h : b < 2 ^ w) :
    ∃ i, i < w ∧ b ^^^ (b + 1) % 2 ^ w = 2 ^ (i + 1) - 1 := by
  induction w, hw using Nat.le_induction generalizing b with
  | base => exact ⟨0, Nat.one_pos, (by decide : ∀ b < 2, b ^^^ (b + 1) % 2 = 1) b h⟩
  | succ w hw ih =>
    obtain ⟨c, rfl | rfl⟩ := Nat.even_or_odd' b
    · refine ⟨0, Nat.succ_pos w, ?_⟩
      have hnext : 2 * c ^^^ 1 = 2 * c + 1 := Nat.xor_one_of_even (even_two_mul c)
      rw [Nat.mod_eq_of_lt (by omega), ← hnext, Nat.xor_xor_cancel_left]
      rfl
    · obtain ⟨i, hi, hrun⟩ := ih (b := c) (by omega)
      refine ⟨i + 1, Nat.succ_lt_succ hi, ?_⟩
      have hcarry : (2 * c + 1 + 1) % 2 ^ (w + 1) = 2 * ((c + 1) % 2 ^ w) := by
        rw [pow_succ', ← Nat.mul_mod_mul_left]
        rfl
      have hdouble (d : Nat) : (2 * c + 1) ^^^ 2 * d = 2 * (c ^^^ d) + 1 := Nat.xor_bit true c false d
      have hpow := Nat.two_pow_pos (i + 1)
      rw [hcarry, hdouble, hrun]
      omega

/-- The code of a run of low bits is its top bit. -/
theorem gray_two_pow_sub_one (i : Nat) : gray (2 ^ (i + 1) - 1) = 2 ^ i := by
  refine Nat.eq_of_testBit_eq fun j => ?_
  simp only [gray, Nat.testBit_xor, Nat.testBit_shiftRight, Nat.testBit_two_pow_sub_one, Nat.testBit_two_pow]
  obtain hlt | rfl | hgt := lt_trichotomy j i
  · simp [hlt.ne', Nat.add_comm 1, hlt, Nat.lt_succ_of_lt hlt]
  · simp [Nat.add_comm 1]
  · simp [hgt.ne, Nat.add_comm 1, hgt.not_ge, hgt.not_gt]

/-- Settles O35: `bin` and `gray` undo each other, and neighbours differ by a run of low bits, whose code is one bit. -/
theorem grayCodeIsInvertibleAndOneBit : Obligations.GrayCodeIsInvertibleAndOneBit := by
  refine ⟨fun _ => rfl, fun _ _ h => ⟨gray_lt h, bin_gray h⟩, fun _ _ h => ⟨bin_lt h, gray_bin h⟩,
    fun _ _ _ h hi => testBit_bin h hi.le, fun w b hw h => ?_, by decide⟩
  obtain ⟨i, hi, hrun⟩ := xor_add_one_mod hw h
  exact ⟨i, hi, by rw [← gray_xor, hrun, gray_two_pow_sub_one]⟩

end Sys2Proof.Machine

/-!
PROOFS. The edges of the two crossings of 44_cdc_sync.md: what a first stage captures (R152), how the stages and the sampling
bits move at every edge (R151, R153), and the edges a view needs to catch up (R155).
-/
namespace Sys2Proof.Machine

/-! ## The capture (R152) -/

@[simp] theorem sampled_previous (c p : Nat) : sampled true c p .previous = p := rfl

/-- Settles O36: each sample is a capture of its source, and a capture is read off the change bit and the draw. -/
theorem firstStageCapturesCurrentOrPrevious : Obligations.FirstStageCapturesCurrentOrPrevious := by
  intro s
  simp only [State.sampleW, State.sampleR]
  refine ⟨fun hchg => ?_, fun _ hd => ?_, fun hchg hd => ?_, fun hchg => ?_, fun _ hd => ?_, fun hchg hd => ?_⟩
  · rw [hchg, sampled_unchanged]
  · rw [hd, sampled_current]
  · rw [hchg, hd, sampled_previous]
  · rw [hchg, sampled_unchanged]
  · rw [hd, sampled_current]
  · rw [hchg, hd, sampled_previous]

/-! ## Every edge (R151, R153) -/

/-- A pointer move of the write domain does not touch the bits its own synchroniser samples by (R9, R153). -/
theorem moveWrite_rSampling (s : State) (nxt : Nat) :
    (s.moveWrite nxt).sampling.rChg = s.sampling.rChg ∧ (s.moveWrite nxt).sampling.rPrev = s.sampling.rPrev := by
  rw [moveWrite_sampling]
  split <;> exact ⟨rfl, rfl⟩

/-- A pointer move of the read domain does not touch the bits its own synchroniser samples by (R9, R153). -/
theorem moveRead_wSampling (s : State) (b g : Nat) :
    (s.moveRead b g).sampling.wChg = s.sampling.wChg ∧ (s.moveRead b g).sampling.wPrev = s.sampling.wPrev := by
  rw [moveRead_sampling]
  split <;> exact ⟨rfl, rfl⟩

theorem moveWrite_sampleR (s : State) (nxt : Nat) : (s.moveWrite nxt).sampleR = s.sampleR := by
  obtain ⟨hchg, hprev⟩ := moveWrite_rSampling s nxt
  rw [State.sampleR, hchg, hprev]
  rfl

theorem moveRead_sampleW (s : State) (b g : Nat) : (s.moveRead b g).sampleW = s.sampleW := by
  obtain ⟨hchg, hprev⟩ := moveRead_wSampling s b g
  rw [State.sampleW, hchg, hprev]
  rfl

/-- A completed command of the write port is the domain's shift, with or without a move of the write pointer (R125 to
R127). -/
theorem exec_write_next {i : Instr} {s t : State} (hi : i.domain = .write) (h : exec i s = .next t) :
    t = s.syncW ∨ ∃ m nxt, t = ((s.setMem m).moveWrite nxt).syncW := by
  obtain ⟨rfl, -⟩ | ⟨f, b, rfl, -⟩ | ⟨rfl, -⟩ | ⟨rfl, rfl⟩ | ⟨d, rfl, rfl⟩ | ⟨rfl, -⟩ | ⟨rfl, -, -⟩ | ⟨rfl, -⟩ := exec_next h
  case inr.inr.inr.inl => exact .inl rfl
  case inr.inr.inr.inr.inl =>
    split
    · exact .inl rfl
    · exact .inr ⟨_, _, rfl⟩
  all_goals cases hi

/-- A completed command of the read port is the domain's shift, with or without a move of the read pointer (R137 to
R140). -/
theorem exec_read_next {i : Instr} {s t : State} (hi : i.domain = .read) (h : exec i s = .next t) :
    t = s.syncR ∨ ∃ v b g, t = ((s.setPopped v).moveRead b g).syncR := by
  obtain ⟨rfl, -⟩ | ⟨f, b, rfl, -⟩ | ⟨rfl, -⟩ | ⟨rfl, -⟩ | ⟨d, rfl, -⟩ | ⟨rfl, rfl⟩ | ⟨rfl, -, rfl⟩ | ⟨rfl, rfl⟩ := exec_next h
  case inr.inr.inr.inr.inr.inl => exact .inl rfl
  case inr.inr.inr.inr.inr.inr.inl => exact .inr ⟨_, _, _, rfl⟩
  case inr.inr.inr.inr.inr.inr.inr =>
    by_cases hn : s.cfg.n = 0
    · exact .inl (by rw [flushView_zero hn])
    · exact .inr ⟨s.popped, _, _, by rw [flushView_ring hn, setPopped_self]⟩
  all_goals cases hi

theorem exec_write_stages {i : Instr} {s t : State} (hi : i.domain = .write) (h : exec i s = .next t) :
    t.rd = s.rd ∧ t.wr.rqW = shiftStages s.sampleR s.wr.rqW := by
  obtain rfl | ⟨m, nxt, rfl⟩ := exec_write_next hi h
  · exact ⟨rfl, rfl⟩
  · exact ⟨rfl, congrArg (shiftStages · s.wr.rqW) (moveWrite_sampleR (s.setMem m) nxt)⟩

theorem exec_read_stages {i : Instr} {s t : State} (hi : i.domain = .read) (h : exec i s = .next t) :
    t.wr = s.wr ∧ t.rd.wqR = shiftStages s.sampleW s.rd.wqR := by
  obtain rfl | ⟨v, b, g, rfl⟩ := exec_read_next hi h
  · exact ⟨rfl, rfl⟩
  · exact ⟨rfl, congrArg (shiftStages · s.rd.wqR) (moveRead_sampleW (s.setPopped v) b g)⟩

/-- Settles O37: the command's pointer move leaves the sample and the stages, so the edge is a shift of the sample into
them. -/
theorem everyEdgeShiftsItsSynchroniser : Obligations.EveryEdgeShiftsItsSynchroniser := by
  intro s t i h
  constructor
  · intro hi
    obtain ⟨hrd, hstages⟩ := exec_write_stages hi h
    rw [hrd, hstages]
    exact ⟨rfl, shiftStages_length _ _, shiftStages_head _, fun j => shiftStages_next _⟩
  · intro hi
    obtain ⟨hwr, hstages⟩ := exec_read_stages hi h
    rw [hwr, hstages]
    exact ⟨rfl, shiftStages_length _ _, shiftStages_head _, fun j => shiftStages_next _⟩

/-- Settles O38: the shift clears the bit of the pointer it samples, and a move of the domain's own pointer marks its change
and nothing else. -/
theorem samplingBitsTrackPointerChanges : Obligations.SamplingBitsTrackPointerChanges := by
  intro s t i h
  constructor
  · intro hi
    obtain rfl | ⟨m, nxt, rfl⟩ := exec_write_next hi h
    · exact ⟨rfl, rfl, fun hne => absurd rfl hne, fun _ => ⟨rfl, rfl⟩⟩
    · refine ⟨rfl, (moveWrite_rSampling _ _).2, fun hne => ?_, fun heq => ?_⟩
      · have hmoved : gray nxt ≠ s.wr.wgray := hne
        simp [hmoved]
      · have hsame : gray nxt = s.wr.wgray := heq
        simp [hsame]
  · intro hi
    obtain rfl | ⟨v, b, g, rfl⟩ := exec_read_next hi h
    · exact ⟨rfl, rfl, fun hne => absurd rfl hne, fun _ => ⟨rfl, rfl⟩⟩
    · refine ⟨rfl, (moveRead_wSampling _ _ _).2, fun hne => ?_, fun heq => ?_⟩
      · have hmoved : g ≠ s.rd.rgray := hne
        simp [hmoved]
      · have hsame : g = s.rd.rgray := heq
        simp [hsame]

/-! ## A run of edges into one view (R151, R155) -/

/-- What a first stage captures at the edges of a run with these draws while the source holds still, newest first: the first
edge may capture the previous value, the others capture the current one (R152, R153). -/
def captured (chg : Bool) (current previous : Nat) : List Draw → List Nat
  | [] => []
  | d :: ds => List.replicate ds.length current ++ [sampled chg current previous d]

@[simp] theorem captured_length (chg : Bool) (c p : Nat) (ds : List Draw) :
    (captured chg c p ds).length = ds.length := by
  cases ds <;> simp [captured]

theorem captured_unchanged (c p : Nat) (ds : List Draw) : captured false c p ds = List.replicate ds.length c := by
  cases ds <;> simp [captured, List.replicate_succ']

theorem captured_current {ds : List Draw} (chg : Bool) (c p : Nat) (hds : ∀ d ∈ ds, d = .current) :
    captured chg c p ds = List.replicate ds.length c := by
  cases ds with
  | nil => rfl
  | cons d ds => simp [captured, hds d List.mem_cons_self, List.replicate_succ']

/-- Shifting a value into the stages puts it behind the values that are shifted in after it. -/
theorem take_append_shiftStages (xs : List Nat) (x : Nat) (q : List Nat) :
    (xs ++ shiftStages x q).take q.length = (xs ++ [x] ++ q).take q.length := by
  rw [shiftStages, List.append_assoc, List.singleton_append, List.take_append, List.take_append, List.take_take,
    Nat.min_eq_left (Nat.sub_le _ _)]

/-- Edges that shift a source into stages and leave the source as it is: in a run of them the stages keep the newest of what
they held and captured. -/
theorem foldl_edge_captured {edge : State → Draw → State} {stages : State → List Nat} {chg : State → Bool}
    {current previous : State → Nat}
    (hshift : ∀ s d, stages (edge s d) = shiftStages (sampled (chg s) (current s) (previous s) d) (stages s))
    (hstill : ∀ s d, current (edge s d) = current s) (hcovered : ∀ s d, chg (edge s d) = false)
    (ds : List Draw) (s : State) :
    stages (ds.foldl edge s) =
      (captured (chg s) (current s) (previous s) ds ++ stages s).take (stages s).length := by
  induction ds generalizing s with
  | nil => exact List.take_length.symm
  | cons d ds ih =>
    rw [List.foldl_cons, ih, hcovered, hstill, captured_unchanged, hshift, shiftStages_length, take_append_shiftStages]
    rfl

theorem lastStage_replicate_append {n c : Nat} (xs : List Nat) {q : List Nat} (hpos : 0 < q.length)
    (hlen : q.length ≤ n) :
    lastStage ((List.replicate n c ++ xs).take q.length) = c := by
  rw [List.take_append_of_le_length (by simpa using hlen), List.take_replicate, Nat.min_eq_left hlen, lastStage,
    List.getLastD_eq_getLast?, List.getLast?_replicate, if_neg hpos.ne']
  rfl

/-- The last stage after fewer values are shifted in than there are stages is an old one. -/
theorem getElem?_eq_lastStage_take {xs q : List Nat} (hlen : xs.length < q.length) :
    q[q.length - 1 - xs.length]? = some (lastStage ((xs ++ q).take q.length)) := by
  have hlast : ((xs ++ q).take q.length).getLast? = q[q.length - 1 - xs.length]? := by
    rw [List.getLast?_eq_getElem?, List.length_take_of_le (by simp), List.getElem?_take_of_lt (by omega),
      List.getElem?_append_right (by omega)]
  have hsome : q[q.length - 1 - xs.length]? = some q[q.length - 1 - xs.length] := List.getElem?_eq_getElem (by omega)
  rw [lastStage, List.getLastD_eq_getLast?, hlast, hsome]
  rfl

/-- The view after a run of edges while the source holds still: the current value once the stages are full of it, and until
then what they held (R155). -/
theorem lastStage_captured (chg : Bool) (current previous : Nat) (ds : List Draw) {q : List Nat} (hpos : 0 < q.length) :
    (q.length + 1 ≤ ds.length → lastStage ((captured chg current previous ds ++ q).take q.length) = current) ∧
    (q.length ≤ ds.length → (∀ d ∈ ds, d = .current) →
      lastStage ((captured chg current previous ds ++ q).take q.length) = current) ∧
    (ds.length < q.length →
      q[q.length - 1 - ds.length]? = some (lastStage ((captured chg current previous ds ++ q).take q.length))) := by
  refine ⟨fun hmore => ?_, fun hmany hds => ?_, fun hfew => ?_⟩
  · cases ds with
    | nil => cases hmore
    | cons d ds =>
      rw [captured, List.append_assoc]
      exact lastStage_replicate_append _ hpos (Nat.le_of_succ_le_succ hmore)
  · rw [captured_current chg current previous hds]
    exact lastStage_replicate_append q hpos hmany
  · rw [← captured_length chg current previous ds] at hfew ⊢
    exact getElem?_eq_lastStage_take hfew

/-- What a `wclk` edge with W.NOP makes of a state out of reset. -/
def State.wNopEdge (s : State) (d : Draw) : State := ((s.setScript []).driveDrawR d).syncW

theorem play_wNops {s : State} (ds : List Draw) (hc : configRefusal s.cfg = none) (hw : s.ports.wrstN = true) :
    play (ds.map fun d => .wclk 0b000000000#9 d) s = .next (ds.foldl State.wNopEdge s) := by
  induction ds generalizing s with
  | nil => rfl
  | cons d ds ih =>
    have hstep : step (s.setScript [.wclk 0b000000000#9 d]) = .next (s.wNopEdge d) :=
      step_wclk d hc hw (decode_wcmd_nop 0#8)
    exact (play_cons_of_next hstep).trans (ih hc hw)

theorem foldl_wNopEdge_rd (ds : List Draw) (s : State) : (ds.foldl State.wNopEdge s).rd = s.rd := by
  induction ds generalizing s with
  | nil => rfl
  | cons d ds ih => exact ih (s.wNopEdge d)

theorem rNopEdges_wqR (ds : List Draw) (s : State) :
    (ds.foldl State.rNopEdge s).rd.wqR =
      (captured s.sampling.wChg s.wr.wgray s.sampling.wPrev ds ++ s.rd.wqR).take s.rd.wqR.length :=
  foldl_edge_captured (edge := State.rNopEdge) (stages := fun s => s.rd.wqR) (chg := fun s => s.sampling.wChg)
    (current := fun s => s.wr.wgray) (previous := fun s => s.sampling.wPrev)
    (fun _ _ => rfl) (fun _ _ => rfl) (fun _ _ => rfl) ds s

theorem wNopEdges_rqW (ds : List Draw) (s : State) :
    (ds.foldl State.wNopEdge s).wr.rqW =
      (captured s.sampling.rChg s.rd.rgray s.sampling.rPrev ds ++ s.wr.rqW).take s.wr.rqW.length :=
  foldl_edge_captured (edge := State.wNopEdge) (stages := fun s => s.wr.rqW) (chg := fun s => s.sampling.rChg)
    (current := fun s => s.rd.rgray) (previous := fun s => s.sampling.rPrev)
    (fun _ _ => rfl) (fun _ _ => rfl) (fun _ _ => rfl) ds s

/-- Settles O52: each NOP edge shifts its source into the stages and leaves the source as it is, so a run of them shows the
source once the stages are full of it. -/
theorem viewCatchesUpWithinLatency : Obligations.ViewCatchesUpWithinLatency := by
  intro s ds hc
  have hdepth := stages_of_accepted hc
  constructor
  · intro hr hlen
    refine ⟨_, play_rNops ds hc hr, foldl_rNopEdge_wr ds s, ?_⟩
    rw [State.wgrayR, rNopEdges_wqR, ← hlen]
    exact lastStage_captured _ _ _ ds (by omega)
  · intro hw hlen
    refine ⟨_, play_wNops ds hc hw, foldl_wNopEdge_rd ds s, ?_⟩
    rw [State.rgrayW, wNopEdges_rqW, ← hlen]
    exact lastStage_captured _ _ _ ds (by omega)

end Sys2Proof.Machine

/-!
PROOFS. The faults and refusals of 60_exceptions.md: the reserved words (R167) and the empty pops (R166) that fault, the
edges that an asserted reset keeps from their command (R174), and the refusals of R170.
-/
namespace Sys2Proof.Machine

/-! ## Steps that run no command -/

/-- With an accepted configuration a step is the answer its script's next HOST step plans. -/
theorem step_of_planStep_answer {s : State} {e : HostStep} {rest : List HostStep}
    {o : Host.Outcome State Fault Refusal} (hc : configRefusal s.cfg = none) (hs : s.script = e :: rest)
    (hp : planStep e (s.setScript rest) = .answer o) : step s = o := by
  simp [step, plan_of_accepted hc, takeHostStep_script_cons hs, hp]

/-! ## Reserved words (R167) -/

theorem planWord_of_reserved {w : CmdWord} {port : Domain} {word : Nat} (s : State)
    (h : decode w = .error (.reserved port word)) : planWord w s = .answer (.fault (.reservedCommand port word)) := by
  simp [planWord, h]

/-- A planned fault stands, whether the acknowledgement answers a request or not (R167, R199). -/
@[simp] theorem refuseStrayAck_fault (ack : Bool) (s : State) (r : Fault) :
    refuseStrayAck ack s (.answer (.fault r)) = .answer (.fault r) := rfl

theorem planStep_cclk_of_reserved {s : State} (f b : Word32) (ack : Bool) (rdata : Nat) (hrst : s.ports.crstN = true) :
    planStep (.cclk 0b11#2 f b ack rdata) s = .answer (.fault (.reservedCommand .brc 0b11)) := by
  have hd : decode (.brccmd 0b11#2 f b) = .error (.reserved .brc 0b11) := rfl
  simp only [planStep, driveBus_ports, hrst, if_true, planWord_of_reserved _ hd, refuseStrayAck_fault]

theorem planStep_rclk_of_reserved {s : State} (d : Draw) (hrst : s.ports.rrstN = true) :
    planStep (.rclk 0b11#2 d) s = .answer (.fault (.reservedCommand .read 0b11)) := by
  have hd : decode (.rcmd 0b11#2) = .error (.reserved .read 0b11) := rfl
  simp only [planStep, driveDrawW_ports, hrst, if_true, planWord_of_reserved _ hd]

/-- Settles O6: taking the step off the script changes no reset level, and an edge out of reset plans the fault of its
reserved word. -/
theorem reservedWordFaults : Obligations.ReservedWordFaults := by
  intro s rest hc
  constructor
  · intro f b ack rdata hs hrst
    exact step_of_planStep_answer hc hs (planStep_cclk_of_reserved f b ack rdata hrst)
  · intro d hs hrst
    exact step_of_planStep_answer hc hs (planStep_rclk_of_reserved d hrst)

/-! ## Edges in an asserted reset (R174, R186) -/

theorem planStep_cclk_of_reset {s : State} (op : BitVec 2) (f b : Word32) {ack : Bool} (rdata : Nat)
    (hrst : s.ports.crstN = false) (hack : ack = true → s.brc.busReq = true) :
    planStep (.cclk op f b ack rdata) s = .answer (.next (s.driveBus ack rdata).resetBrc) := by
  simp [planStep, refuseStrayAck_kept _ hack, hrst]

theorem planStep_wclk_of_reset {s : State} (w : BitVec 9) (d : Draw) (hrst : s.ports.wrstN = false) :
    planStep (.wclk w d) s = .answer (.next (s.driveDrawR d).resetArb) := by
  simp [planStep, hrst]

theorem planStep_rclk_of_reset {s : State} (op : BitVec 2) (d : Draw) (hrst : s.ports.rrstN = false) :
    planStep (.rclk op d) s = .answer (.next (s.driveDrawW d).resetArb) := by
  simp [planStep, hrst]

/-- Settles O7: whatever its word, the edge plans its unit's reset, which writes that unit's registers only. -/
theorem assertedResetIgnoresCommands : Obligations.AssertedResetIgnoresCommands := by
  intro s rest hc
  refine ⟨?_, ?_, ?_⟩
  · intro op f b ack rdata hs hrst hack
    exact ⟨_, step_of_planStep_answer hc hs (planStep_cclk_of_reset op f b rdata hrst hack), rfl, rfl, rfl, rfl, rfl⟩
  · intro w d hs hrst
    exact ⟨_, step_of_planStep_answer hc hs (planStep_wclk_of_reset w d hrst), rfl, rfl, rfl, rfl, rfl⟩
  · intro op d hs hrst
    exact ⟨_, step_of_planStep_answer hc hs (planStep_rclk_of_reset op d hrst), rfl, rfl, rfl, rfl, rfl⟩

/-! ## Refusals (R170) -/

/-- R55: an accepted configuration has every register address aligned. -/
theorem offsetAligned_of_accepted {c : Config} (h : configRefusal c = none) {off : Nat} (hoff : off ∈ regOffsets c) :
    offsetAligned c off = true := by
  unfold configRefusal at h
  split_ifs at h
  simp only [Option.map_eq_none_iff, List.find?_eq_none, Bool.not_eq_true', Bool.not_eq_false] at h
  exact h off hoff

/-- A configuration with a misaligned register address has no step (R55). -/
theorem step_refused_of_misaligned {s : State} {off : Nat} (hoff : off ∈ regOffsets s.cfg)
    (hbad : regAddress s.cfg off % (s.cfg.regW / 8) ≠ 0) : ∃ r, step s = .refused r := by
  cases hc : configRefusal s.cfg with
  | some r => exact ⟨r, step_of_configRefusal hc⟩
  | none => exact absurd (eq_of_beq (offsetAligned_of_accepted hc hoff)) hbad

/-- An acknowledgement without a request is refused at every edge that is not planned to fault (R197, R199). -/
theorem refuseStrayAck_of_not_fault {s : State} {p : Plan} (hreq : s.brc.busReq = false)
    (hp : ∀ r, p ≠ .answer (.fault r)) : refuseStrayAck true s p = .answer (.refused .ackWithoutRequest) :=
  (refuseStrayAck_broken p hreq).resolve_right fun ⟨r, hr, _⟩ => hp r hr

/-- A `cclk` edge is planned to fault only for a reserved word, out of reset (R167, R174). -/
theorem planStep_cclk_of_strayAck {s : State} {op : BitVec 2} (f b : Word32) (rdata : Nat)
    (hreq : s.brc.busReq = false) (h : op ≠ 0b11#2 ∨ s.ports.crstN = false) :
    planStep (.cclk op f b true rdata) s = .answer (.refused .ackWithoutRequest) := by
  refine refuseStrayAck_of_not_fault hreq fun r => ?_
  cases hrst : s.ports.crstN with
  | false => simp [hrst]
  | true =>
    obtain ⟨i, hd, -⟩ := decode_brccmd_of_legal f b (h.resolve_right (by simp [hrst]))
    simp [hrst, planWord_of_decode _ hd]

/-- Settles O10: a misaligned address is refused with the configuration, and every other action by the plan of its HOST
step. -/
theorem forbiddenActionsAreRefused : Obligations.ForbiddenActionsAreRefused := by
  refine ⟨?_, ?_, ?_, ?_⟩
  · rintro s ⟨off, hoff, hbad⟩
    exact step_refused_of_misaligned hoff hbad
  · intro s rest c w r hc hs hne
    exact step_of_planStep_answer hc hs (congrArg Plan.answer (if_neg hne))
  · intro s rest p hc
    exact ⟨fun hs => step_of_planStep_answer hc hs rfl, fun hs => step_of_planStep_answer hc hs rfl⟩
  · intro s rest op f b rdata hc hs hreq hedge
    exact step_of_planStep_answer hc hs (planStep_cclk_of_strayAck f b rdata hreq hedge)

/-! ## Pops of an empty view (R166) -/

/-- A command faults only as a pop of an empty view, with the fault that records `rbin` (R165, R166). -/
theorem exec_fault {i : Instr} {s : State} {r : Fault} (h : exec i s = .fault r) :
    i = .rPop ∧ s.rEmpty = true ∧ r = .popEmpty .read s.rd.rbin := by
  cases i with
  | rPop =>
    cases hempty : s.rEmpty with
    | true => rw [exec_rPop_of_empty hempty] at h; cases h; exact ⟨rfl, rfl, rfl⟩
    | false => rw [exec_rPop_of_visible hempty] at h; cases h
  | brcNop | brcStart _ _ | brcApply | wNop | wPush _ | rNop | rFlush => cases h

/-- Settles O43: the view of a block with `N = 0` is empty too, and no other command's meaning faults. -/
theorem popOfAnEmptyViewFaults : Obligations.PopOfAnEmptyViewFaults := fun _ =>
  ⟨exec_rPop_of_empty, fun hn => exec_rPop_of_empty (rEmpty_of_zero hn), fun _ _ => exec_fault⟩

end Sys2Proof.Machine

/-!
PROOFS. The statements of 70_reset_and_hazards.md: the resets act as one step (R187, R188), an asserted reset is held at
every step (R186, R187), and the reset values (R185) meet every invariant.
-/
namespace Sys2Proof.Machine

/-! ## Driving the resets (R187, R188) -/

/-- With equal ARB levels the resets are driven: a level at 0 gives its unit the reset values of R185, and a level at 1
leaves its unit as it is. -/
theorem applyResets_equal_levels (s : State) (c a : Bool) :
    ∃ t, s.applyResets c a a = .next t ∧
      t.ports = { s.ports with crstN := c, wrstN := a, rrstN := a } ∧
      t.brc = (if c = true then s.brc else Brc.reset) ∧
      t.wr = (if a = true then s.wr else WriteDomain.reset s.cfg) ∧
      t.rd = (if a = true then s.rd else ReadDomain.reset s.cfg) ∧
      t.mem = (if a = true then s.mem else []) ∧
      t.sampling = (if a = true then s.sampling else Sampling.reset) ∧
      t.popped = (if a = true then s.popped else none) ∧
      t.cfg = s.cfg ∧ t.script = s.script ∧ t.tick = s.tick := by
  refine ⟨_, if_pos rfl, ?_⟩
  cases c <;> cases a <;> exact ⟨rfl, rfl, rfl, rfl, rfl, rfl, rfl, rfl, rfl, rfl⟩

/-- Settles O8: taking the step off the script changes no register, and the step is then the driving of the resets. -/
theorem resetsActAsOneStep : Obligations.ResetsActAsOneStep := by
  intro s rest c a hc hs
  obtain ⟨t, ht, hfields⟩ := applyResets_equal_levels (s.setScript rest) c a
  exact ⟨t, step_of_planStep_answer hc hs (congrArg Plan.answer ht), hfields⟩

/-! ## An asserted reset is held (R186, R187) -/

/-- A word decodes to a command of its own port (R70). -/
theorem domain_of_decode {w : CmdWord} {i : Instr} (h : decode w = .ok i) : i.domain = w.domain := by
  cases w.form with
  | wNop d => rw [decode_wcmd_nop] at h; cases h; rfl
  | wPush d => rw [decode_wcmd_push] at h; cases h; rfl
  | brcReserved | rReserved => cases h
  | brcNop | brcStart | brcApply | rNop | rPop | rFlush => cases h; rfl

/-- A command of an ARB port does not touch BRC (R65, R182). -/
theorem exec_arb_brc {i : Instr} {s t : State} (hi : i.domain ≠ .brc) (h : exec i s = .next t) : t.brc = s.brc := by
  obtain ⟨-, -, -, -, -, hwrite, hread⟩ := commandsStayInTheirDomain s t i h
  cases hd : i.domain with
  | brc => exact absurd hd hi
  | write => exact (hwrite hd).1
  | read => exact (hread hd).1

namespace ResetsHeld

/-! Taking a HOST step and sampling its ports change neither a reset level nor a register; a reset writes the values its
level asks for. -/

theorem takeHostStep {s : State} (h : ResetsHeld s) : ResetsHeld s.takeHostStep.2 := by
  obtain ⟨hcfg, hbrc, hwr, hrd, hmem, hsampling, -, hports⟩ := takeHostStep_frame s
  constructor
  · rw [hports, hbrc]; exact h.brc
  · rw [hports]; exact h.together
  · rw [hports, hwr, hrd, hmem, hsampling, hcfg]; exact h.arb

theorem driveBus {s : State} (h : ResetsHeld s) (ack : Bool) (rdata : Nat) : ResetsHeld (s.driveBus ack rdata) :=
  ⟨h.brc, h.together, h.arb⟩

theorem driveDrawR {s : State} (h : ResetsHeld s) (d : Draw) : ResetsHeld (s.driveDrawR d) :=
  ⟨h.brc, h.together, h.arb⟩

theorem driveDrawW {s : State} (h : ResetsHeld s) (d : Draw) : ResetsHeld (s.driveDrawW d) :=
  ⟨h.brc, h.together, h.arb⟩

theorem resetBrc {s : State} (h : ResetsHeld s) : ResetsHeld s.resetBrc := ⟨fun _ => rfl, h.together, h.arb⟩

theorem resetArb {s : State} (h : ResetsHeld s) : ResetsHeld s.resetArb :=
  ⟨h.brc, h.together, fun _ => ⟨rfl, rfl, rfl, rfl⟩⟩

/-- A command of BRC's port runs out of BRC's reset and does not touch ARB (R65, R174). -/
theorem exec_brc {i : Instr} {s t : State} (h : ResetsHeld s) (hi : i.domain = .brc) (hrst : s.ports.crstN = true)
    (hx : exec i s = .next t) : ResetsHeld t := by
  obtain ⟨hcfg, hports, -, -, hframe, -, -⟩ := commandsStayInTheirDomain s t i hx
  obtain ⟨hwr, hrd, hmem, hsampling, -⟩ := hframe hi
  constructor
  · rw [hports, hrst]; exact nofun
  · rw [hports]; exact h.together
  · rw [hports, hwr, hrd, hmem, hsampling, hcfg]; exact h.arb

/-- A command of an ARB port runs out of the ARB resets, which are at one level, and does not touch BRC (R65, R174). -/
theorem exec_arb {i : Instr} {s t : State} (h : ResetsHeld s) (hi : i.domain ≠ .brc) (hrst : s.ports.wrstN = true)
    (hx : exec i s = .next t) : ResetsHeld t := by
  constructor
  · rw [exec_ports hx, exec_arb_brc hi hx]; exact h.brc
  · rw [exec_ports hx]; exact h.together
  · rw [exec_ports hx, hrst]; exact nofun

/-- Driving the resets gives every unit whose level is at 0 its reset values, whatever the state before (R187). -/
theorem of_applyResets {s t : State} {c w r : Bool} (h : s.applyResets c w r = .next t) : ResetsHeld t := by
  obtain ⟨rfl, -⟩ := applyResets_next h
  obtain ⟨t', ht', hports, hbrc, hwr, hrd, hmem, hsampling, -, hcfg, -⟩ := applyResets_equal_levels s c w
  cases h.symm.trans ht'
  constructor
  · rw [hports, hbrc]; rintro rfl; rfl
  · rw [hports]
  · rw [hports, hwr, hrd, hmem, hsampling, hcfg]; rintro rfl; exact ⟨rfl, rfl, rfl, rfl⟩

end ResetsHeld

/-- Settles O55: a step runs a command, which needs its own unit out of reset and does not touch the other, or resets a
unit, or drives the resets; taking the HOST step and sampling its ports changes no level and no register before that. -/
theorem stepKeepsAssertedResetsHeld : Obligations.StepKeepsAssertedResetsHeld := by
  intro s t hheld h
  have hu := hheld.takeHostStep
  obtain ⟨-, ⟨op, f, b, ack, rdata, i, -, hrst, -, hd, hx⟩ | ⟨op, f, b, ack, rdata, -, -, -, rfl⟩ |
    ⟨w, d, i, -, hrst, hd, hx⟩ | ⟨w, d, -, -, rfl⟩ | ⟨op, d, i, -, hrst, hd, hx⟩ | ⟨op, d, -, -, rfl⟩ |
    ⟨c, w, r, -, hx⟩⟩ := step_next h
  · exact (hu.driveBus ack rdata).exec_brc (domain_of_decode hd) hrst hx
  · exact (hu.driveBus ack rdata).resetBrc
  · exact (hu.driveDrawR d).exec_arb ((domain_of_decode hd).trans_ne nofun) hrst hx
  · exact (hu.driveDrawR d).resetArb
  · exact (hu.driveDrawW d).exec_arb ((domain_of_decode hd).trans_ne nofun) (hu.together.trans hrst) hx
  · exact (hu.driveDrawW d).resetArb
  · exact .of_applyResets hx

/-! ## The machine right after reset (R185) -/

/-- Right after reset there is nothing in ARB to reset. -/
theorem resetArb_resetOf (c : Config) : (State.resetOf c).resetArb = State.resetOf c := rfl

theorem inv_resetOf {c : Config} (hc : configRefusal c = none) : Inv (State.resetOf c) where
  brc := BrcInv.reset c
  ring := resetArb_resetOf c ▸ ringInv_resetArb (s := State.resetOf c) hc
  resets := ⟨nofun, rfl, nofun⟩
  memory := rfl

theorem configRefusal_reference : configRefusal Config.reference = none := by decide

/-- Settles O56: the reference configuration is an accepted one. -/
theorem resetMeetsTheInvariants : Obligations.ResetMeetsTheInvariants :=
  ⟨fun _ => inv_resetOf, inv_resetOf configRefusal_reference⟩

/-- Stages at their reset values show the count 0. -/
theorem lastStage_replicate_zero (n : Nat) : lastStage (List.replicate n 0) = 0 :=
  Nat.le_zero.mp (Crossing.reset 0 n).lastStage_le

theorem bin_lastStage_replicate_zero (pw n : Nat) : bin pw (lastStage (List.replicate n 0)) = 0 := by
  rw [(Crossing.reset pw n).bin_lastStage, lastStage_replicate_zero, Nat.zero_mod]

theorem subMod_zero_zero (w : Nat) : subMod w 0 0 = 0 := by simp [subMod]

theorem wLevel_resetOf (c : Config) : (State.resetOf c).wLevel = 0 := by
  simp only [State.wLevel, State.rgrayW, State.resetOf, WriteDomain.reset, bin_lastStage_replicate_zero,
    subMod_zero_zero, ite_self]

theorem rLevel_resetOf (c : Config) : (State.resetOf c).rLevel = 0 := by
  simp only [State.rLevel, State.wgrayR, State.resetOf, ReadDomain.reset, bin_lastStage_replicate_zero,
    subMod_zero_zero, ite_self]

theorem stageCount_of_ring {c : Config} (hn : c.n ≠ 0) : stageCount c = c.stages := if_neg hn

theorem length_stages_resetOf {c : Config} (hn : c.n ≠ 0) :
    (State.resetOf c).wr.rqW.length = c.stages ∧ (State.resetOf c).rd.wqR.length = c.stages := by
  have hdepth : (List.replicate (stageCount c) 0).length = c.stages := by
    rw [List.length_replicate, stageCount_of_ring hn]
  exact ⟨hdepth, hdepth⟩

theorem flags_of_levels_zero {s : State} (hw : s.wLevel = 0) (hr : s.rLevel = 0) :
    s.wEmpty = true ∧ s.rEmpty = true ∧ s.wFull = decide (s.cfg.n = 0) ∧ s.rFull = decide (s.cfg.n = 0) := by
  simp only [State.wEmpty, State.rEmpty, State.wFull, State.rFull, hw, hr]
  exact ⟨rfl, rfl, decide_eq_decide.mpr eq_comm, decide_eq_decide.mpr eq_comm⟩

/-- Settles O57: the registers are at the values reset writes, and with them the views count no byte. -/
theorem resetValues : Obligations.ResetValues := by
  rintro c _ rfl
  have hw := wLevel_resetOf c
  have hr := rLevel_resetOf c
  obtain ⟨hwEmpty, hrEmpty, hwFull, hrFull⟩ := flags_of_levels_zero hw hr
  have hstages : ∀ q ∈ List.replicate (stageCount c) 0, q = 0 := fun _ => List.eq_of_mem_replicate
  exact ⟨rfl, rfl, rfl, hstages, fun hn => (length_stages_resetOf hn).1, rfl, rfl, hstages,
    fun hn => (length_stages_resetOf hn).2, Memory.read_nil, rfl, rfl, rfl, rfl, rfl, rfl, rfl, rfl, rfl, rfl, rfl, rfl,
    rfl, rfl, hw, hr, hwEmpty, hrEmpty, hwFull, hrFull⟩

end Sys2Proof.Machine
